-- ==== Sys2Proof/Word.lean ====
section
/-! DEFINITION. The word types of the Q7 and their plainest arithmetic. -/

namespace Sys2Proof

/-- A byte of memory (R6). -/
abbrev Byte := BitVec 8

/-- A 32-bit register value (R41, R42). -/
abbrev Word := BitVec 32

/-- A 64-bit value: a register pair, a loader or storer register, a host register (R6). -/
abbrev Dword := BitVec 64

/-- The name of a scalar register, s0 to s63 (R41). -/
abbrev SReg := BitVec 6

/-- The name of a loader or storer register, x0 to x31 (R144). -/
abbrev XReg := BitVec 5

/-- A table of sparse data: rising keys, no entry equal to what an unlisted key reads as. -/
abbrev SMap (α : Type) := List (Nat × α)

end Sys2Proof
end

