-- ==== Sys2Proof/Config.lean ====
section
/-! DEFINITION. What the module's build fixes (R2, R39, R68, R150, R190, R204), and the free values: constants without
a body, so that no proof can depend on what they are. -/

namespace Sys2Proof.Config

/-- Cores of one compute die (R2). -/
def coresPerDie : Nat := 128
/-- Cores of the module (R2). -/
def coreCount : Nat := 512
/-- L2 slices of the module (R69). -/
def sliceCount : Nat := 320
/-- Tenant slots (R24). -/
def tenantCount : Nat := 32
/-- Launch slots (R190). -/
def launchSlots : Nat := 64
/-- Queues of the physical function and of the 32 tenants (R217, R227). -/
def queueCount : Nat := 2112
/-- Queues that may be enabled at once (R217). -/
def maxEnabledQueues : Nat := 1024
/-- Packets in one queue's window (R226). -/
def windowSize : Nat := 32
/-- Vector registers of one scheduler's half (R43). -/
def vregsPerScheduler : Nat := 2048
/-- Cohort slots of one scheduler (R175). -/
def cohortsPerScheduler : Nat := 16
/-- Lane blocks of one lane queue (R169). -/
def laneQueueDepth : Nat := 4
/-- Slots of a tile-engine queue (R150). -/
def tileSlots : Nat := 8
/-- Operations that one matrix engine holds (R397). -/
def engineOps : Nat := 16
/-- Committed batches of a cohort that may be uncompleted (R391). -/
def openBatches : Nat := 8
/-- Deferral entries of a slice (R82). -/
def deferralEntries : Nat := 256
/-- Ordered-reduction entries of a slice (R68). -/
def redoEntries : Nat := 2048
/-- Pages of one die's record store (R204). -/
def recordPages : Nat := 4096
/-- Translations that a core's buffer holds (R34). -/
def tlbEntries : Nat := 64
/-- Leaf translations that a die's cache holds (R34). -/
def dieLeafEntries : Nat := 8192
/-- Non-leaf entries that a die's cache holds (R34). -/
def dieNonLeafEntries : Nat := 1024
/-- Credits for records towards one package (R459). -/
def recordCredits : Nat := 256
/-- Clks after which a ready stream is lifted (R186), an operation granted (R399 takes the larger one). -/
def starvationClk : Nat := 16384
/-- The 65,536 clk of R177, R189, R206 and R399. -/
def longClk : Nat := 65536
/-- Ways of each set of the L1D (R39). -/
def l1dWays : Nat := 8
/-- Sets of the L1D: 128 KiB of 64-byte lines in 8 ways (R39). -/
def l1dSets : Nat := 256
/-- Lines of the scalar instruction cache: 32 KiB of 64 bytes (R39). -/
def sicLines : Nat := 512
/-- Lines of the lane instruction cache: 64 KiB of 192 bytes (R39). -/
def licLines : Nat := 341
/-- Sets of a slice (R68). -/
def sliceSets : Nat := 2048
/-- Ways of a set that record-page lines may take (R95). -/
def recordWays : Nat := 4
/-- Clks that a line may stay in the L1D (R62). -/
def l1dClk : Nat := 8192
/-- Clks of one millisecond at 1.5 GHz (R3). -/
def msClk : Nat := 1500000

/-- FREE VALUE: whether the n-th racing chunk is read new (true) or old (R56, R96). -/
opaque freeChunkNew : Nat → Bool
/-- FREE VALUE: the die, modulo 4, whose front end serves a device queue (R463, R466 name one front end for each die). -/
opaque queueDie : Nat → Nat
/-- FREE VALUE: which of several free places a thing takes, where the spec says only that it takes a free one (R65, R150, R204,
R433, R444): a number for the numbers in use and the size. -/
opaque freePick : List Nat → Nat → Nat
/-- FREE VALUE: the set of its slice that a line falls in, modulo the number of sets (R68 states no index function). -/
opaque lineSet : Nat → Nat
/-- FREE VALUE: which register F_RUNHZ names where a word has several hazards (R179, R414). -/
opaque hazardPick : List Nat → Nat
/-- FREE VALUE: the SHAKE256 digest, at 512 bits, of a byte string (R462 names it and does not state it). -/
opaque shake256 : List Byte → BitVec 512
/-- FREE VALUE: whether a signature verifies as ML-DSA-65 with a key over a message (R462). -/
opaque mldsaVerify : (key sig msg : List Byte) → Bool
/-- FREE VALUE: whether the n-th training of the HBM4E stacks, or of the links, succeeds (R462, R463). -/
opaque trainingOk : Nat → Bool
/-- FREE VALUE: the UALink ports that the n-th training finds trained (R451, R462). -/
opaque portsTrained : Nat → BitVec 36
/-- FREE VALUE: the n-th byte of the device identity public key that a seed generates (R465). -/
opaque identityKey : BitVec 256 → Nat → Byte
/-- FREE VALUE: the n-th byte of the ML-DSA-65 signature of a report (R465). -/
opaque reportSig : BitVec 256 → List Byte → Nat → Byte

end Sys2Proof.Config
end

