-- ==== Sys2Proof/Syntax.lean ====
section
/-! DEFINITION. The instructions and events of the module as data: decoding puts every field of an encoded word here,
and the machine never sees the words again. -/

namespace Sys2Proof

/-- The fields of a lane word other than OP (R274). -/
structure LaneWord where
  sw   : Bool
  ty   : BitVec 4
  d    : BitVec 8
  a    : BitVec 9
  b    : BitVec 9
  c    : BitVec 9
  holdA : BitVec 2
  holdB : BitVec 2
  holdC : BitVec 2
  md   : BitVec 10
  imm  : Word
  deriving DecidableEq, Repr

/-- The access kinds of a walk (R21). -/
inductive AccessKind where
  | read | write | readWrite | fetch
  deriving DecidableEq, Repr

/-- How a load that left the device ended (R457), or that the home slice of another package had no room for a future request (R82).
Local accesses answer `done`. -/
inductive Reply where
  | done | refused | unreachable | full
  deriving DecidableEq, Repr

/-- Width of a loader or storer memory access. -/
inductive RvWidth where
  | b | h | w | d
  deriving DecidableEq, Repr

/-- Register operations of RV64IM, Zba and Zbb (R144). -/
inductive RvAlu where
  | add | sub | sll | slt | sltu | xor | srl | sra | or | and
  | addw | subw | sllw | srlw | sraw
  | mul | mulh | mulhsu | mulhu | div | divu | rem | remu | mulw | divw | divuw | remw | remuw
  | adduw | sh1add | sh2add | sh3add | sh1adduw | sh2adduw | sh3adduw
  | andn | orn | xnor | min | minu | max | maxu | rol | ror | rolw | rorw
  deriving DecidableEq, Repr

/-- Immediate operations with a 12-bit immediate. -/
inductive RvImm where
  | addi | slti | sltiu | xori | ori | andi | addiw
  deriving DecidableEq, Repr

/-- Shift-immediate operations. -/
inductive RvShift where
  | slli | srli | srai | slliw | srliw | sraiw | rori | roriw | slliuw
  deriving DecidableEq, Repr

/-- One-operand operations of Zbb. -/
inductive RvUnary where
  | clz | ctz | cpop | clzw | ctzw | cpopw | sextb | sexth | zexth | orcb | rev8
  deriving DecidableEq, Repr

/-- Conditional branches. -/
inductive RvBranch where
  | beq | bne | blt | bge | bltu | bgeu
  deriving DecidableEq, Repr

/-- Atomic memory operations. -/
inductive RvAmo where
  | swap | add | xor | and | or | min | max | minu | maxu
  deriving DecidableEq, Repr

/-- Accesses to control and status registers. -/
inductive RvCsr where
  | rw | rs | rc
  deriving DecidableEq, Repr

/-- The instructions of RV64IMAC with Zicsr, Zba and Zbb that the loader and storer run (R144). ECALL and the Xqtl
instructions are rows of their own. -/
inductive RvOp where
  | lui (rd : XReg) (imm : BitVec 20)
  | auipc (rd : XReg) (imm : BitVec 20)
  | jal (rd : XReg) (off : BitVec 20)
  | jalr (rd rs1 : XReg) (imm : BitVec 12)
  | branch (op : RvBranch) (rs1 rs2 : XReg) (off : BitVec 12)
  | load (wd : RvWidth) (uns : Bool) (rd rs1 : XReg) (imm : BitVec 12)
  | store (wd : RvWidth) (rs1 rs2 : XReg) (imm : BitVec 12)
  | alu (op : RvAlu) (rd rs1 rs2 : XReg)
  | imm (op : RvImm) (rd rs1 : XReg) (imm : BitVec 12)
  | shift (op : RvShift) (rd rs1 : XReg) (sh : BitVec 6)
  | unary (op : RvUnary) (rd rs1 : XReg)
  | lr (dbl : Bool) (aqrl : BitVec 2) (rd rs1 : XReg)
  | sc (dbl : Bool) (aqrl : BitVec 2) (rd rs1 rs2 : XReg)
  | amo (op : RvAmo) (dbl : Bool) (aqrl : BitVec 2) (rd rs1 rs2 : XReg)
  | csr (op : RvCsr) (useImm : Bool) (rd rs1 : XReg) (num : BitVec 12)
  | fence (fm : BitVec 4) (prd scc : BitVec 4) (rd rs1 : XReg)
  | wfi
  deriving DecidableEq, Repr

/-- Where an error was found (R102, R464). -/
structure ErrorSite where
  /-- STRUCT of R464, 1 to 9. -/
  place : Nat
  /-- Flipped bits in the span of the storage's code (R99). -/
  bits : Nat
  die  : Nat
  core : Nat
  /-- The tenant slot, none where there is no requester. -/
  tenant : Option Nat
  /-- Physical address, buffer offset, or entry number. -/
  addr : Nat
  /-- The group, cohort or loader and storer pair that owns the structure. -/
  owner : Nat
  /-- Which of the structures that share a STRUCT code: 0 the first. -/
  part : Nat
  deriving DecidableEq, Repr

/-- What an access that comes in over UALink does (R456). -/
inductive RemoteKind where
  | load (len : Nat)
  | store (data : List Byte)
  | atomic (code : BitVec 4) (w64 : Bool) (a b : Dword)
  | reduce (code : BitVec 4) (w64 : Bool) (a : Dword)
  | futureLoad (w64 : Bool)
  | futureFill (value : Dword)
  | record (header : BitVec 128) (handle : Dword) (payload : List Byte)
  deriving DecidableEq, Repr

/-- An access that comes in over UALink (R456). -/
structure RemoteAccess where
  pkg  : Nat
  key  : BitVec 16
  off  : BitVec 40
  kind : RemoteKind
  deriving DecidableEq, Repr


/-- One constructor for each row of the table of operations and events: the scalar instructions, the lane
instructions, the loader and storer instructions, and the indivisible steps of the module's other agents. -/
inductive Instr where
  /-- R287. Scalar no-operation; it has no effect. -/
  | nop
  /-- R288. Drains the lane queue, closes a non-empty open batch, ends the cohort and frees its slot, registers and private slot. -/
  | done
  /-- R426. Returns from a trap handler: joins, restores s48-s63, the code base and the anchor state, then continues at the anchor. -/
  | tret
  /-- R287. Sets the cohort's arbitration age to the current clk. -/
  | yield
  /-- R290. Join point that orders the cohort's accesses as an ACQ, REL or AR fence at the scope given. -/
  | fence (scope kind : BitVec 6)
  /-- R286. Reads a special register into an s register; for FPF it first waits for earlier blocks. -/
  | getr (d : SReg) (ix : BitVec 6)
  /-- R286. Writes a special register from an s register. -/
  | setr (a : SReg) (ix : BitVec 6)
  /-- R289. Join point that waits until the lane queue is empty, then parks until pending results and held VLDFs clear. -/
  | lwait
  /-- R292. d := a + b, keeping 32 bits. -/
  | add (d a b : SReg)
  /-- R292. d := a - b, keeping 32 bits. -/
  | sub (d a b : SReg)
  /-- R292. d := low 32 bits of a x b. -/
  | mul (d a b : SReg)
  /-- R292. d := high 32 bits of the signed product. -/
  | mulhI32 (d a b : SReg)
  /-- R292. d := high 32 bits of the unsigned product. -/
  | mulhN32 (d a b : SReg)
  /-- R292. d := a and b. -/
  | and (d a b : SReg)
  /-- R292. d := a or b. -/
  | or (d a b : SReg)
  /-- R292. d := a xor b. -/
  | xor (d a b : SReg)
  /-- R292. d := a and not b. -/
  | andn (d a b : SReg)
  /-- R292. Shifts a left by b[4:0]. -/
  | shl (d a b : SReg)
  /-- R292. Logical right shift of a by b[4:0]. -/
  | shr (d a b : SReg)
  /-- R292. Arithmetic right shift of a by b[4:0]. -/
  | sra (d a b : SReg)
  /-- R292. Signed minimum of a and b. -/
  | minI32 (d a b : SReg)
  /-- R292. Unsigned minimum of a and b. -/
  | minN32 (d a b : SReg)
  /-- R292. Signed maximum of a and b. -/
  | maxI32 (d a b : SReg)
  /-- R292. Unsigned maximum of a and b. -/
  | maxN32 (d a b : SReg)
  /-- R292. d := 1 when a < b signed, otherwise 0. -/
  | sltI32 (d a b : SReg)
  /-- R292. d := 1 when a < b unsigned, otherwise 0. -/
  | sltN32 (d a b : SReg)
  /-- R292. d := 1 when a = b, otherwise 0. -/
  | seq (d a b : SReg)
  /-- R292. d := a when d is nonzero, otherwise b. -/
  | sel (d a b : SReg)
  /-- R292. Counts the 1 bits of a. -/
  | popc (d a : SReg)
  /-- R292. Counts the leading zero bits of a. -/
  | clz (d a : SReg)
  /-- R292. Counts the trailing zero bits of a. -/
  | ctz (d a : SReg)
  /-- R292. Extracts a bit field of a selected by b. -/
  | bfe (d a b : SReg)
  /-- R292. 64-bit pair addition modulo 2^64. -/
  | add64 (d a b : SReg)
  /-- R292. 64-bit pair subtraction modulo 2^64. -/
  | sub64 (d a b : SReg)
  /-- R293. d := a + sext(imm13). -/
  | addi (d a : SReg) (imm : BitVec 13)
  /-- R293. d := a and the sign-extended immediate. -/
  | andi (d a : SReg) (imm : BitVec 13)
  /-- R293. d := a or the sign-extended immediate. -/
  | ori (d a : SReg) (imm : BitVec 13)
  /-- R293. d := a xor the sign-extended immediate. -/
  | xori (d a : SReg) (imm : BitVec 13)
  /-- R293. Shifts a left by imm13[4:0]. -/
  | shli (d a : SReg) (sh : BitVec 5)
  /-- R293. Logical right shift of a by imm13[4:0]. -/
  | shri (d a : SReg) (sh : BitVec 5)
  /-- R293. Arithmetic right shift of a by imm13[4:0]. -/
  | srai (d a : SReg) (sh : BitVec 5)
  /-- R293. d := 1 when a < imm signed, otherwise 0. -/
  | slti (d a : SReg) (imm : BitVec 13)
  /-- R293. d := 1 when a equals imm modulo 2^32, otherwise 0. -/
  | seqi (d a : SReg) (imm : BitVec 13)
  /-- R293. d := low 32 bits of a x imm. -/
  | muli (d a : SReg) (imm : BitVec 13)
  /-- R293. d := sext(imm13). -/
  | li (d : SReg) (imm : BitVec 13)
  /-- R293. d := the 32-bit extension word. -/
  | lix (d : SReg) (ext : Word)
  /-- R293. d := a + the 32-bit extension word. -/
  | addix (d a : SReg) (ext : Word)
  /-- R293. d:d+1 := a:a+1 + sext(imm13), modulo 2^64. -/
  | adda (d a : SReg) (imm : BitVec 13)
  /-- R294. Loads a 32-bit word from global memory. -/
  | ldB32 (d a : SReg) (imm : BitVec 13)
  /-- R294. Loads a 64-bit doubleword into a pair. -/
  | ldB64 (d a : SReg) (imm : BitVec 13)
  /-- R294. Loads a zero-extended byte. -/
  | ldN8 (d a : SReg) (imm : BitVec 13)
  /-- R294. Loads a sign-extended byte. -/
  | ldI8 (d a : SReg) (imm : BitVec 13)
  /-- R294. Loads a zero-extended halfword. -/
  | ldN16 (d a : SReg) (imm : BitVec 13)
  /-- R294. Loads a sign-extended halfword. -/
  | ldI16 (d a : SReg) (imm : BitVec 13)
  /-- R294. Stores a 32-bit word to global memory. -/
  | stB32 (d a : SReg) (imm : BitVec 13)
  /-- R294. Stores a 64-bit pair. -/
  | stB64 (d a : SReg) (imm : BitVec 13)
  /-- R294. Stores the low byte of d. -/
  | stB8 (d a : SReg) (imm : BitVec 13)
  /-- R294. Stores the low halfword of d. -/
  | stB16 (d a : SReg) (imm : BitVec 13)
  /-- R298. Read-modify-write at the home slice that returns the old word. -/
  | atom (d a b : SReg) (w64 : Bool) (code : BitVec 4)
  /-- R296. Loads from the group's scratchpad at s[a] + s[b]. -/
  | ldsp (d a b : SReg) (minor : BitVec 7)
  /-- R296. Stores to the group's scratchpad at s[a] + s[b]. -/
  | stsp (d a b : SReg) (minor : BitVec 7)
  /-- R297. Ordered acquire (or AR) load from global memory; a join point. -/
  | ldo (d a : SReg) (scope : BitVec 3) (w64 : Bool) (kind : BitVec 2)
  /-- R297. Ordered release (or AR) store to global memory; a join point. -/
  | sto (d a : SReg) (scope : BitVec 3) (w64 : Bool) (kind : BitVec 2)
  /-- R299. Unconditional branch relative to SPC. -/
  | br (off : BitVec 25)
  /-- R300. Pushes SPC + 4 onto the return stack (spilling when deep) and branches. -/
  | call (off : BitVec 25)
  /-- R300. Pops the return stack (refilling from the private slot when deep) and transfers to the entry. -/
  | ret
  /-- R300. Transfers to s[a]. -/
  | jr (a : SReg)
  /-- R299. Branches when a = b. -/
  | beq (a b : SReg) (off : BitVec 13)
  /-- R299. Branches when a differs from b. -/
  | bne (a b : SReg) (off : BitVec 13)
  /-- R299. Branches when a < b signed. -/
  | bltI32 (a b : SReg) (off : BitVec 13)
  /-- R299. Branches when a >= b signed. -/
  | bgeI32 (a b : SReg) (off : BitVec 13)
  /-- R299. Branches when a < b unsigned. -/
  | bltN32 (a b : SReg) (off : BitVec 13)
  /-- R299. Branches when a >= b unsigned. -/
  | bgeN32 (a b : SReg) (off : BitVec 13)
  /-- R299. Branches when a = 0. -/
  | bz (a : SReg) (off : BitVec 13)
  /-- R299. Branches when a is nonzero. -/
  | bnz (a : SReg) (off : BitVec 13)
  /-- R301. Sets up loop k from a count register, or skips the body when the count is zero. -/
  | loop (k : BitVec 1) (c : SReg) (off : BitVec 18)
  /-- R303. Deactivates loop k. -/
  | loopx (k : BitVec 1)
  /-- R305. Multiway call that serves the lowest list index chosen by the lanes still to be served. -/
  | btab (d a : SReg) (list : List (BitVec 25))
  /-- R318. Raises a software trap with a code and s[a]. -/
  | trap (a : SReg) (code : BitVec 12)
  /-- R169. Fetches a lane block, snapshots the window and modes, marks exports pending and enqueues the block. -/
  | lane (a : SReg) (len : BitVec 6) (index : Word)
  /-- R308. Checks, releases and sends one record from the scratchpad to a target node. -/
  | spawn (d a b : SReg) (scope : BitVec 3)
  /-- R312. Initialises a barrier object with its expected arrivals. -/
  | barInit (d a b : SReg)
  /-- R312. Releases at its scope and adds one arrival to a barrier object. -/
  | barArrive (d a : SReg) (scope : BitVec 6)
  /-- R312. Adds expected bytes to a barrier object. -/
  | barExpect (d a b : SReg)
  /-- R312. Arrives and also lowers the arrivals expected from the next phase on. -/
  | barDrop (d a : SReg) (scope : BitVec 6)
  /-- R312. Continues when the phase has completed, otherwise parks until it does; acquires on return. -/
  | barWait (d a b : SReg)
  /-- R312. Reports whether a phase has completed, acquiring when it has. -/
  | barTest (d a b : SReg)
  /-- R315. Reads the safe-point entry, takes an anchor, resets the safe gap and honours a pending pre-emption. -/
  | safe (n : BitVec 10)
  /-- R317. Pushes a region identifier and raises RSTK.DEPTH. -/
  | enter (id : BitVec 12)
  /-- R317. Pops a region identifier and lowers RSTK.DEPTH. -/
  | leave
  /-- R390. Issues a dense matrix multiply-accumulate into the engine. -/
  | mma (d a b : SReg) (ext : Word)
  /-- R409. Issues a structured sparse term multiply-accumulate. -/
  | mmas (d a b : SReg) (ext : Word)
  /-- R410. Issues the application of a residual list to C. -/
  | mres (d a b : SReg) (at3 : BitVec 3) (mb : BitVec 4)
  /-- R391. Closes the open batch and returns its number, stalling at 8 uncompleted batches. -/
  | mcommit (d : SReg)
  /-- R393. Waits for a batch to complete, then acquires its results or traps with a pending batch fault. -/
  | mwait (a : SReg)
  /-- R395. Join point that makes earlier buffer writes visible to later matrix operations. -/
  | mfence
  /-- R401. Returns the cohort's held operations to the engine. -/
  | mresume
  /-- R396. Reads an item of batch or engine status into s[d]. -/
  | mstat (d : SReg) (item : BitVec 7)
  /-- R333. Lane no-operation. -/
  | vnop (w : LaneWord)
  /-- R322. Per-element integer addition. -/
  | vadd (w : LaneWord)
  /-- R322. Per-element integer subtraction. -/
  | vsub (w : LaneWord)
  /-- R322. Per-element integer multiplication. -/
  | vmul (w : LaneWord)
  /-- R322. High half of the per-element product. -/
  | vmulh (w : LaneWord)
  /-- R323. Per-element multiply-add with one wrap or saturation. -/
  | vmad (w : LaneWord)
  /-- R327. Bitwise and. -/
  | vand (w : LaneWord)
  /-- R327. Bitwise or. -/
  | vor (w : LaneWord)
  /-- R327. Bitwise xor. -/
  | vxor (w : LaneWord)
  /-- R327. Bitwise and-not. -/
  | vandn (w : LaneWord)
  /-- R328. Per-element left shift. -/
  | vshl (w : LaneWord)
  /-- R328. Per-element logical right shift. -/
  | vshr (w : LaneWord)
  /-- R328. Per-element arithmetic right shift. -/
  | vsra (w : LaneWord)
  /-- R322. Per-element integer minimum. -/
  | vmin (w : LaneWord)
  /-- R322. Per-element integer maximum. -/
  | vmax (w : LaneWord)
  /-- R326. Per-element absolute value. -/
  | vabs (w : LaneWord)
  /-- R326. Per-element negation. -/
  | vneg (w : LaneWord)
  /-- R331. Per-element integer comparison that gives a mask. -/
  | vcmp (w : LaneWord)
  /-- R332. Per-element select on C. -/
  | vsel (w : LaneWord)
  /-- R329. Per-element population count. -/
  | vpopc (w : LaneWord)
  /-- R329. Per-element leading-zero count. -/
  | vclz (w : LaneWord)
  /-- R329. Per-element trailing-zero count. -/
  | vctz (w : LaneWord)
  /-- R330. Bit-field extract. -/
  | vbfe (w : LaneWord)
  /-- R330. Bit-field insert. -/
  | vbfi (w : LaneWord)
  /-- R322. Saturating per-element addition. -/
  | vaddsat (w : LaneWord)
  /-- R322. Saturating per-element subtraction. -/
  | vsubsat (w : LaneWord)
  /-- R325. Four-byte dot product with an accumulator. -/
  | vdot4 (w : LaneWord)
  /-- R327. Three-input bitwise function by truth table. -/
  | vbool (w : LaneWord)
  /-- R346. Floating-point addition rounded once. -/
  | vfadd (w : LaneWord)
  /-- R346. Floating-point subtraction rounded once. -/
  | vfsub (w : LaneWord)
  /-- R346. Floating-point multiplication rounded once. -/
  | vfmul (w : LaneWord)
  /-- R346. Fused multiply-add with one rounding. -/
  | vfma (w : LaneWord)
  /-- R347. Floating-point minimum. -/
  | vfmin (w : LaneWord)
  /-- R347. Floating-point maximum. -/
  | vfmax (w : LaneWord)
  /-- R348. Floating-point comparison that gives a mask. -/
  | vfcmp (w : LaneWord)
  /-- R349. One-hot class mask of each element. -/
  | vfclass (w : LaneWord)
  /-- R350. Correctly rounded reciprocal. -/
  | vrcp (w : LaneWord)
  /-- R350. Correctly rounded reciprocal square root. -/
  | vrsq (w : LaneWord)
  /-- R350. Correctly rounded square root. -/
  | vsqrt (w : LaneWord)
  /-- R350. Correctly rounded base-2 exponential. -/
  | vexp2 (w : LaneWord)
  /-- R350. Correctly rounded base-2 logarithm. -/
  | vlog2 (w : LaneWord)
  /-- R353. Converts between float and integer types, including stochastic rounding. -/
  | vcvt (w : LaneWord)
  /-- R351. Rounds each element to an integral value. -/
  | vfrnd (w : LaneWord)
  /-- R352. Multiplies each element by 2^n. -/
  | vscale (w : LaneWord)
  /-- R357. Packs integer fields from a register group. -/
  | vpack (w : LaneWord)
  /-- R358. Extracts one integer field. -/
  | vunpk (w : LaneWord)
  /-- R360. Quantises the cohort's 32 values into an MX block in lane form. -/
  | vmxq (w : LaneWord)
  /-- R361. Dequantises an MX block held in lane form. -/
  | vmxd (w : LaneWord)
  /-- R334. Indexed lane shuffle with fill. -/
  | vshuf (w : LaneWord)
  /-- R334. Xor-indexed lane shuffle with fill. -/
  | vshufx (w : LaneWord)
  /-- R334. Lane shift or rotation. -/
  | vshift (w : LaneWord)
  /-- R334. Broadcasts one lane's value, or the first active lane's. -/
  | vbcast (w : LaneWord)
  /-- R338. Export of a ballot, any, all or count to an s register. -/
  | vvote (w : LaneWord)
  /-- R339. Export of a tree reduction over the active lanes. -/
  | vredx (w : LaneWord)
  /-- R336. Inclusive or exclusive running reduction over the active lanes. -/
  | vscan (w : LaneWord)
  /-- R340. Export of one lane's value to an s register. -/
  | vxs (w : LaneWord)
  /-- R335. Mask of the active lanes that hold an equal value. -/
  | vmatch (w : LaneWord)
  /-- R368. Per-lane load from global, private or scratchpad space, plain or acquire. -/
  | vld (w : LaneWord)
  /-- R368. Per-lane store, plain or release. -/
  | vst (w : LaneWord)
  /-- R374. Per-lane atomic read-modify-write that returns old values. -/
  | vatom (w : LaneWord)
  /-- R375. Per-lane reduction combined in the core and sent to home slices. -/
  | vred (w : LaneWord)
  /-- R376. Per-lane keyed addition buffered in the ordered-reduction store. -/
  | vredo (w : LaneWord)
  /-- R378. Future load: one request per distinct cell, answered with status and value. -/
  | vldf (w : LaneWord)
  /-- R379. Future fill: one 16-byte release write per distinct cell. -/
  | vstf (w : LaneWord)
  /-- R381. Checks, releases and sends one record per active lane in lane order. -/
  | vspawn (w : LaneWord)
  /-- R371. Transposing scratchpad load across each quad. -/
  | vldt (w : LaneWord)
  /-- R370. Per-lane load from WBUF, ABUF or CBUF. -/
  | vldb (w : LaneWord)
  /-- R370. Per-lane store to WBUF, ABUF or CBUF. -/
  | vstb (w : LaneWord)
  /-- R382. Prefetch hint that makes no access and raises no fault. -/
  | vpref (w : LaneWord)
  /-- R337. An issued export writes its s register after its latency and clears the pending bit. -/
  | exportWrite (c : Nat)
  /-- R178. A returning load or atomic value writes its destination and leaves the pending map, or traps with F_DATA. -/
  | loadReturn (c k : Nat) (reply : Reply)
  /-- R378. A future answer writes value and status to the lanes that share the request. -/
  | vldfAnswer (c k : Nat)
  /-- R181. A parked cohort returns to arbitration once its wait clears. -/
  | cohortWake (c : Nat)
  /-- R186. A stream ready and unissued for 16,384 clk receives one lifted issue. -/
  | starvationLift (c : Nat) (lane : Bool)
  /-- R144. Executes one RV64IMAC instruction on a loader or storer core. -/
  | riscvInstruction (op : RvOp) (short : Bool)
  /-- R148. Waits for the core's commands to finish, discards stopped ones and halts the core. -/
  | ecall
  /-- R154. Issues a tile load command. -/
  | tld (rd rs1 : XReg)
  /-- R159. Issues a transposing tile load command. -/
  | tldt (rd rs1 : XReg)
  /-- R403. Issues a sparse tile decomposition through the Planisher. -/
  | tlds (rd rs1 : XReg)
  /-- R158. Issues a gather of rows by an index list. -/
  | tgath (rd rs1 : XReg)
  /-- R154. Issues a tile store from CBUF or the scratchpad. -/
  | tst (rd rs1 : XReg)
  /-- R160. Issues a global-to-global copy with a transform. -/
  | tcopy (rd rs1 : XReg)
  /-- R164. One arrival on a barrier object from a loader or storer core. -/
  | tbarArrive (rd rs1 : XReg)
  /-- R164. Adds expected bytes to a barrier object. -/
  | tbarExpect (rd rs1 rs2 : XReg)
  /-- R164. The core waits until a phase has completed. -/
  | tbarWait (rd rs1 rs2 : XReg)
  /-- R164. Tests whether a phase has completed. -/
  | tbarTest (rd rs1 rs2 : XReg)
  /-- R162. Waits until every command up to a ticket has finished. -/
  | twait (rd rs1 : XReg)
  /-- R162. Later commands start no access until earlier ones have retired. -/
  | tfence
  /-- R162. Returns the status word of a ticket. -/
  | tstat (rd rs1 : XReg)
  /-- R162. Restarts a stopped command from its progress. -/
  | tres (rd rs1 : XReg)
  /-- R162. Kills a queued, stopped or running command and returns its uncounted expected bytes. -/
  | tkill (rd rs1 : XReg)
  /-- R150. The engine starts a queued command in ticket order once no fence holds it. -/
  | tileCommandStart (g : Nat) (st : Bool) (slot : Nat)
  /-- R156. A row's bytes are performed and counted on the barrier, and rowdone and rowmap advance. lost: another package does not
  perform its writes (R457). -/
  | tileRowComplete (g : Nat) (st : Bool) (slot row : Nat) (lost : Bool)
  /-- R156. A command's last row completes, its slot frees and any completion count is added. -/
  | tileCommandComplete (g : Nat) (st : Bool) (slot : Nat)
  /-- R157. A fault at a row stops the command with a fault status after issued rows finish. refused: another package refuses its
  read (R457). -/
  | tileCommandStop (g : Nat) (st : Bool) (slot : Nat) (refused : Bool)
  /-- R397. The engine completes one K-group step of one accumulator block. -/
  | matrixStep (core : Nat)
  /-- R399. An operation that has waited 65,536 clk is granted its current output block. -/
  | engineWaitGrant (core k : Nat)
  /-- R397. An operation finishes its last step, or stops with a batch fault. -/
  | matrixOpFinish (core : Nat)
  /-- R392. A batch completes in number order, ORs its flags into FPF and releases its locks. -/
  | batchComplete (c : Nat)
  /-- R20. Walks the tenant's tables for a page and checks windows, giving a translation or a fault. -/
  | pageWalk (core t : Nat) (va : Dword) (kind : AccessKind)
  /-- R31. Posts a fault-ring entry, advances TXFRH and signals FVEC, waiting while the ring is full. -/
  | faultRingPost (t k : Nat)
  /-- R25. A rise of EN clears the fault sequence and ring indices; a fall rejects outstanding entries and cancels held future requests. -/
  | txctlWrite (t : Nat) (v : Dword)
  /-- R25. Moves the consume index forward over posted entries, or is ignored. -/
  | txfrtWrite (t : Nat) (v : Dword)
  /-- R32. Accepts a fault entry: drops the page's translation and makes the waiters retranslate. -/
  | txfresAccept (t : Nat) (seq : Word)
  /-- R32. Rejects a fault entry: waiting cohorts trap with F_PAGE and engines stop. -/
  | txfresReject (t : Nat) (seq : Word)
  /-- R37. Starts an invalidation of every cached translation of the tenant. -/
  | txinvAll (t : Nat)
  /-- R37. Starts an invalidation of the translations that overlap a VA range. -/
  | txinvRange (t : Nat) (page : BitVec 44)
  /-- R37. KIND 2 or 3 does nothing. -/
  | txinvNone (t : Nat) (kind : BitVec 2)
  /-- R38. Once entries are gone and earlier accesses are performed, TXINVST.BUSY returns to 0. -/
  | invalidationComplete (t : Nat)
  /-- R119. A global write is applied at its home slice and wakes held requests when it fills a cell. -/
  | homeSliceWrite (core k : Nat)
  /-- R77. The home slice performs one indivisible atomic operation on a word. -/
  | sliceAtomic (core k : Nat)
  /-- R78. The home slice applies a combined VRED to its word. -/
  | reductionApply (core k : Nat)
  /-- R82. A VLDF request reaches the slice and is answered, held or refused with status 1. -/
  | futureRequest (core k : Nat)
  /-- R87. The home slice stores an ordered-reduction entry, spilling to the overflow area or discarding it. -/
  | vredoEntry (core k : Nat)
  /-- R91. A slice applies a launch's entries sorted by word and key. -/
  | orderedFlush (slice slot : Nat)
  /-- R62. A line leaves the L1D no later than 8,192 clk after its fill. -/
  | l1dLineExpiry (core k : Nat)
  /-- R98. Controllers read, check and correct every HBM line at least daily. -/
  | patrolScrub
  /-- R101. L2 and the record store are swept at least every 100 ms. -/
  | storageSweep
  /-- R102. A structure finds a corrected or uncorrectable error and delivers it to its consumer. -/
  | errorDetect (e : ErrorSite)
  /-- R464. Anvil writes an error record to the ring and advances ERRH, or drops it. -/
  | errorRecordPost
  /-- R221. A QTAIL write announces packets, or stops the queue when it passes the ring. -/
  | doorbell (q : Nat) (v : Dword)
  /-- R219. QCTL.EN rising clears the queue state and sets RUN, or is refused with CODE 4. -/
  | queueEnable (q : Nat) (v : Dword)
  /-- R219. QCTL.EN falling discards the unstarted packets. -/
  | queueDisable (q : Nat) (v : Dword)
  /-- R225. A write of RUN = 1 clears QSTAT and restarts at the stopping packet. -/
  | queueRestart (q : Nat) (v : Dword)
  /-- R218. Write-1-to-clear of queue tokens. -/
  | qtokClear (q : Nat) (v : Dword)
  /-- R218. Sets the queue tokens written with 1. -/
  | qtoksSet (q : Nat) (v : Dword)
  /-- R229. Arming the timeline interrupt sends the vector at once when the threshold is already met. -/
  | qirqcArm (q : Nat) (v : Dword)
  /-- R224. Reads a packet into the window, checks CHK and SEQ, and accepts it or stops the queue. -/
  | packetFetch (q : Nat)
  /-- R224. Re-reads a packet that failed its check, at least 64 clk later. -/
  | packetRefetch (q : Nat)
  /-- R228. A NOP packet completes at its start. -/
  | nopPacket (q n : Nat)
  /-- R190. A GRAPH packet starts and creates a graph launch once a slot is free. -/
  | graph (q n : Nat)
  /-- R192. Reads the descriptors, runs the creation checks, takes a slot and enqueues the entry records. -/
  | graphCreate (q n : Nat)
  /-- R233. Copies LEN bytes from SRC to DST, overlap included. -/
  | copy (q n : Nat)
  /-- R229. Raises the queue's timeline and may send the timeline interrupt. -/
  | signal (q n : Nat)
  /-- R229. A WAIT packet waits for a queue's timeline to reach a threshold. -/
  | wait (q n : Nat)
  /-- R236. Withdraws unstarted packets and queued records with a tag and writes the counts. -/
  | withdraw (q n : Nat)
  /-- R238. Mode 0 empties cores for one tenant and saves other tenants' groups. -/
  | vacate (q n : Nat)
  /-- R238. Mode 1 returns every held core of the named dies. -/
  | vacateReturn (q n : Nat)
  /-- R447. Opens a counter capture with eight event codes. -/
  | capstart (q n : Nat)
  /-- R448. Closes a capture and writes its counts. -/
  | capstop (q n : Nat)
  /-- R234. Flushes a resident launch's ordered-reduction entries. -/
  | redflush (q n : Nat)
  /-- R228. A packet completes, ORs its SMASK into the tokens and frees its window entry. -/
  | packetComplete (q n : Nat)
  /-- R235. An LDEST write destroys a named launch. -/
  | launchDestroy (fn : Nat) (v : Dword)
  /-- R203. A record reaches its target scheduler and enters its queue, waits, or bounces. -/
  | recordArrival (die k : Nat)
  /-- R203. A parked spawner enters its record in parking order once room allows. -/
  | spawnerWake (die k : Nat)
  /-- R207. TMR after the oldest record, the buffer forms a cohort of every record present. -/
  | packTimerExpiry (die k : Nat)
  /-- R208. TMR after the oldest record, a forming set forms a group. -/
  | groupFormTimer (die k : Nat)
  /-- R209. Each clk, the die's scheduler places the first candidate that fits and prepares its cohorts. -/
  | launchCandidate (die : Nat)
  /-- R204. Above 3,584 pages, full queue pages spill to the arena through L2. -/
  | recordPageSpill (die : Nat)
  /-- R204. A queue short of resident pages has its oldest spilled page read back. -/
  | recordPageReadback (die : Nat)
  /-- R176. After W clk, a gang record may launch with the fallback size. -/
  | gangWaitExpiry (die k : Nat)
  /-- R177. After W + 65,536 clk, the scheduler closes F cores for the waiting gang. -/
  | gangClosure (die k : Nat)
  /-- R189. A group parked over 65,536 clk is rolled back and saved to make room. -/
  | groupEviction (die g : Nat)
  /-- R206. A launch stuck on spawn back-pressure for 65,536 clk ends with F_DEAD. -/
  | fDead (slot : Nat)
  /-- R193. A launch that runs out of work flushes, releases at .SYS and writes its completion record. -/
  | launchComplete (slot : Nat)
  /-- R415. A fault ends a launch: cohorts stop, commands are killed, records are discarded and END 2 is written. -/
  | launchFaultEnd (slot : Nat)
  /-- R424. Records the cause, rolls back, and enters the tenant's handler or ends the launch. -/
  | trapEntry (c : Nat)
  /-- R428. Once every cohort is held, the group is drained, written to a save area and queued as a resume record. -/
  | groupSave (g : Nat)
  /-- R434. Places a saved group, restores extents, cores and cohorts, and continues at the anchors. -/
  | groupResume (die k : Nat)
  /-- R442. Every SPER x 64 clk, each core writes a sample record of one cohort. -/
  | traceSample (core : Nat)
  /-- R439. TRCTL.EN rising clears TRH and TRLOST. -/
  | traceEnable (t : Nat) (v : Dword)
  /-- R446. Reads a register or memory value of a halted group into DBGDATA. -/
  | dbgcmdRead (t : Nat) (v : Dword)
  /-- R446. Writes DBGDATA into a halted group as a store by the cohort would. -/
  | dbgcmdWrite (t : Nat) (v : Dword)
  /-- R446. Releases a halted group. -/
  | dbgcmdResume (t : Nat) (v : Dword)
  /-- R444. Requests a stop of a launch's cohorts at their next region edge. -/
  | dbgcmdHalt (t : Nat) (v : Dword)
  /-- R449. Clearing the debug right releases halted groups and fails commands in progress. -/
  | dbgrClear (t : Nat)
  /-- R461. Anvil runs its ROM and holds every other core in reset. -/
  | moduleReset
  /-- R462. Anvil verifies an image and releases its cores, or stops bring-up with a failure. -/
  | bringupStep
  /-- R465. AVCMD OP 1 starts a signed attestation report. -/
  | attest (v : Dword)
  /-- R465. Anvil writes the report to DST and sets AVCST.ST to 2. -/
  | attestComplete
  /-- R463. ERRCTL.EN rising clears ERRH and ERRLOST. -/
  | errorRingEnable (v : Dword)
  /-- R466. A firmware core silent for 4 ms is reset by Anvil. -/
  | watchdogExpiry (fw : Nat)
  /-- R466. A core with 16 uncorrectable errors is quarantined and its launches end. -/
  | coreQuarantine (core : Nat)
  /-- R466. A UALink port that reaches its replay limit or watchdog is retrained. -/
  | linkRetrain (port : Nat)
  /-- R469. Power above its limits lowers the arithmetic clock in 93.75 MHz steps; it is raised again when power allows. -/
  | clockThrottle (up : Bool)
  /-- R461. Removal of the 48 V input loses every state of the module. -/
  | powerLoss
  /-- R450. A host access through BAR2 reaches local HBM at the aperture. -/
  | hostBar2Access (off len : Nat) (data : Option (List Byte))
  /-- R454. A PCIe completion returns, or an error or 50 ms timeout becomes F_DATA. -/
  | systemAccessCompletion (c k : Nat) (err : Bool)
  /-- R456. An incoming UALink access is admitted by an inbound window or refused. -/
  | remoteAccessArrival (a : RemoteAccess)
  /-- R455. A remote access with no response within 100 us becomes unreachable. -/
  | remoteTimeout (core k : Nat)
  /-- R458. A failed port re-routes its granules once its requests are acknowledged or timed out. -/
  | portFailure (port : Nat)
  /-- R459. A record credit returns when the remote record enters (cause 0) or bounces (its cause); k names the record. -/
  | remoteCreditReturn (pkg k cause : Nat)
  /-- R451. Sets LEN, HBAP and PKGID; PKGID changes only while LEN = 0. -/
  | pkgctlWrite (v : Dword)
  /-- R452. Binds a virtual function to the tenant unless another tenant holds it. -/
  | tlbindWrite (t : Nat) (v : Dword)
  /-- R7. A host write to a register with no behaviour of its own, under the access types and R502. -/
  | registerWrite (fn off size : Nat) (v : Dword)
  /-- R466. A die reset ends, and the accesses homed on the die that waited up to 50 ms proceed while the die's front end resumes with its kept packets. -/
  | dieResetEnd (die : Nat)
  /-- R466. A retrained UALink port becomes trained again, and its requests that waited up to 5 ms proceed. -/
  | linkRetrainEnd (port : Nat)
  /-- R466. A released firmware core signals Anvil, which restarts that core's 4 ms watchdog count. -/
  | firmwareCoreSignal (fw : Nat)
  /-- R133. A remote package's home slice acknowledges or refuses a remote write, which lets waiting .DOM releases complete and raises TLREF on refusal. -/
  | remoteWriteAcknowledgement (core k : Nat) (refused : Bool)
  /-- R439. A DBGCMD write with a reserved OP or SPACE, a nonzero reserved field, or one made while ST = 1 fails with FAIL 3. -/
  | dbgcmdBadCommand (t : Nat) (v : Dword)
  /-- R463. At the end of each whole millisecond, CLKST.PWR takes the mean module power over that millisecond. -/
  | powerMeasurement (watts : Word)
  deriving DecidableEq, Repr

end Sys2Proof
end

