-- ==== Sys2Proof/Decode.lean ====
section
/-! DEFINITION. The decoders of the scalar words (R270 to R273), the lane words (R274 to R278) and the words of the loader
and storer (R144, R152), each total and refusing by name, and after them the encoders from the same tables. -/

namespace Sys2Proof

/-- Why a word is no instruction. -/
inductive Reject where
  | shortCode       -- the words end before the instruction does
  | noMajor         -- a major that R272 does not list
  | noMinor         -- a minor that its major does not list
  | unusedField     -- a field that the instruction does not use is not zero
  | oddPair         -- an odd register as the first of a pair (R41)
  | loopEnd         -- an end offset of 0 (R271)
  | badCode         -- a code that the entry does not list
  | listWord        -- a BTAB list word with a nonzero [31:25]
  | noLaneOp        -- an OP that R277 does not list
  | laneField       -- check 1 of R278
  | noRv            -- not an instruction of RV64IMAC, Zicsr, Zba or Zbb
  | noXqtl          -- an Xqtl encoding that R152 does not list
  deriving DecidableEq, Repr

/-- Sign extension of a field to 32 bits. -/
def sx32 {n : Nat} (x : BitVec n) : Word := x.signExtend 32

/-- Whether a register can be the first of a pair (R41). -/
def SReg.even (r : SReg) : Bool := !r.getLsbD 0

/-! ## Scalar words -/

def fMajor (w : Word) : Nat := (w.extractLsb' 25 7).toNat
def fD (w : Word) : SReg := w.extractLsb' 19 6
def fA (w : Word) : SReg := w.extractLsb' 13 6
def fB (w : Word) : SReg := w.extractLsb' 7 6
def fMinor (w : Word) : BitVec 7 := w.extractLsb' 0 7
def fImm (w : Word) : BitVec 13 := w.extractLsb' 0 13
def fOff25 (w : Word) : BitVec 25 := w.extractLsb' 0 25

/-- How many words the instruction that begins with `w` has (R270, R272). -/
def scalarWords (w : Word) : Nat :=
  match fMajor w with
  | 0x0D | 0x0E | 0x40 | 0x50 | 0x51 => 2
  | 0x3E => 2 + (w.extractLsb' 0 6).toNat
  | _ => 1

/-- An instruction, unless a rule of R271 is broken. -/
def guardOk (ok : Bool) (r : Reject) (i : Instr) : Except Reject Instr := if ok then .ok i else .error r

/-- Major 0x00, SYS. -/
def decodeSys (w : Word) : Except Reject Instr :=
  let d := fD w; let a := fA w; let b := fB w
  let dz := d == 0; let az := a == 0; let bz := b == 0
  match (fMinor w).toNat with
  | 0x00 => guardOk (dz && az && bz) .unusedField .nop
  | 0x01 => guardOk (dz && az && bz) .unusedField .done
  | 0x02 => guardOk (dz && az && bz) .unusedField .tret
  | 0x03 => guardOk (dz && az && bz) .unusedField .yield
  | 0x04 => if bz then guardOk (decide (d.toNat ≤ 5) && decide (1 ≤ a.toNat) && decide (a.toNat ≤ 3)) .badCode (.fence d a)
            else .error .unusedField
  | 0x05 => if az then guardOk (decide (b.toNat < 22)) .badCode (.getr d b) else .error .unusedField
  | 0x06 => if dz then guardOk (decide (b.toNat < 22)) .badCode (.setr a b) else .error .unusedField
  | 0x07 => guardOk (dz && az && bz) .unusedField .lwait
  | _ => .error .noMinor

/-- Major 0x01, the ALU register forms (R292). -/
def decodeAlu (w : Word) : Except Reject Instr :=
  let d := fD w; let a := fA w; let b := fB w
  let bz := b == 0
  let ev := SReg.even d && SReg.even a && SReg.even b
  match (fMinor w).toNat with
  | 0x00 => .ok (.add d a b)
  | 0x01 => .ok (.sub d a b)
  | 0x02 => .ok (.mul d a b)
  | 0x03 => .ok (.mulhI32 d a b)
  | 0x04 => .ok (.mulhN32 d a b)
  | 0x05 => .ok (.and d a b)
  | 0x06 => .ok (.or d a b)
  | 0x07 => .ok (.xor d a b)
  | 0x08 => .ok (.andn d a b)
  | 0x09 => .ok (.shl d a b)
  | 0x0A => .ok (.shr d a b)
  | 0x0B => .ok (.sra d a b)
  | 0x0C => .ok (.minI32 d a b)
  | 0x0D => .ok (.minN32 d a b)
  | 0x0E => .ok (.maxI32 d a b)
  | 0x0F => .ok (.maxN32 d a b)
  | 0x10 => .ok (.sltI32 d a b)
  | 0x11 => .ok (.sltN32 d a b)
  | 0x12 => .ok (.seq d a b)
  | 0x13 => .ok (.sel d a b)
  | 0x14 => guardOk bz .unusedField (.popc d a)
  | 0x15 => guardOk bz .unusedField (.clz d a)
  | 0x16 => guardOk bz .unusedField (.ctz d a)
  | 0x17 => .ok (.bfe d a b)
  | 0x18 => guardOk ev .oddPair (.add64 d a b)
  | 0x19 => guardOk ev .oddPair (.sub64 d a b)
  | _ => .error .noMinor

/-- Majors 0x02 to 0x0F, the immediate forms (R293). -/
def decodeImm (w ext : Word) : Except Reject Instr :=
  let d := fD w; let a := fA w; let i := fImm w
  let sh := w.extractLsb' 0 5
  let shz := w.extractLsb' 5 8 == 0
  match fMajor w with
  | 0x02 => .ok (.addi d a i)
  | 0x03 => .ok (.andi d a i)
  | 0x04 => .ok (.ori d a i)
  | 0x05 => .ok (.xori d a i)
  | 0x06 => guardOk shz .unusedField (.shli d a sh)
  | 0x07 => guardOk shz .unusedField (.shri d a sh)
  | 0x08 => guardOk shz .unusedField (.srai d a sh)
  | 0x09 => .ok (.slti d a i)
  | 0x0A => .ok (.seqi d a i)
  | 0x0B => .ok (.muli d a i)
  | 0x0C => guardOk (a == 0) .unusedField (.li d i)
  | 0x0D => guardOk (a == 0 && i == 0) .unusedField (.lix d ext)
  | 0x0E => guardOk (i == 0) .unusedField (.addix d a ext)
  | 0x0F => guardOk (SReg.even d && SReg.even a) .oddPair (.adda d a i)
  | _ => .error .noMajor

/-- Majors 0x20 to 0x29, the loads and stores (R294). -/
def decodeMem (w : Word) : Except Reject Instr :=
  let d := fD w; let a := fA w; let i := fImm w
  let e := SReg.even a
  let e2 := e && SReg.even d
  match fMajor w with
  | 0x20 => guardOk e .oddPair (.ldB32 d a i)
  | 0x21 => guardOk e2 .oddPair (.ldB64 d a i)
  | 0x22 => guardOk e .oddPair (.ldN8 d a i)
  | 0x23 => guardOk e .oddPair (.ldI8 d a i)
  | 0x24 => guardOk e .oddPair (.ldN16 d a i)
  | 0x25 => guardOk e .oddPair (.ldI16 d a i)
  | 0x26 => guardOk e .oddPair (.stB32 d a i)
  | 0x27 => guardOk e2 .oddPair (.stB64 d a i)
  | 0x28 => guardOk e .oddPair (.stB8 d a i)
  | 0x29 => guardOk e .oddPair (.stB16 d a i)
  | _ => .error .noMajor

/-- The checks of ATOM's fields (R298). -/
def atomLegal (d a b : SReg) (w64 : Bool) (code : BitVec 4) : Bool :=
  SReg.even a && code.toNat != 15 && (!w64 || (decide (code.toNat < 10) && SReg.even d && SReg.even b))

/-- The checks of LDSP's fields (R296). -/
def ldspLegal (d : SReg) (minor : BitVec 7) : Bool := decide (minor.toNat ≤ 5) && (minor.toNat != 5 || SReg.even d)

/-- The checks of STSP's fields (R296). -/
def stspLegal (d : SReg) (minor : BitVec 7) : Bool := decide (minor.toNat ≤ 3) && (minor.toNat != 3 || SReg.even d)

/-- The checks of LDO's fields (R297). -/
def ldoLegal (d a : SReg) (scope : BitVec 3) (w64 : Bool) (kind : BitVec 2) : Bool :=
  SReg.even a && decide (scope.toNat ≤ 5) && (kind == 1 || kind == 3) && (!w64 || SReg.even d)

/-- The checks of STO's fields (R297). -/
def stoLegal (d a : SReg) (scope : BitVec 3) (w64 : Bool) (kind : BitVec 2) : Bool :=
  SReg.even a && decide (scope.toNat ≤ 5) && (kind == 2 || kind == 3) && (!w64 || SReg.even d)

/-- Majors 0x2A to 0x2E: ATOM, LDSP, STSP, LDO, STO. -/
def decodeAccess (w : Word) : Except Reject Instr :=
  let d := fD w; let a := fA w; let b := fB w; let m := fMinor w
  let w64 := w.getLsbD 4
  let code := w.extractLsb' 0 4
  let scope := w.extractLsb' 4 3
  let wd := w.getLsbD 3
  let kind := w.extractLsb' 0 2
  match fMajor w with
  | 0x2A => if w.extractLsb' 5 2 == 0 then guardOk (atomLegal d a b w64 code) .badCode (.atom d a b w64 code)
            else .error .unusedField
  | 0x2B => guardOk (ldspLegal d m) .badCode (.ldsp d a b m)
  | 0x2C => guardOk (stspLegal d m) .badCode (.stsp d a b m)
  | 0x2D => if b == 0 && !w.getLsbD 2 then guardOk (ldoLegal d a scope wd kind) .badCode (.ldo d a scope wd kind)
            else .error .unusedField
  | 0x2E => if b == 0 && !w.getLsbD 2 then guardOk (stoLegal d a scope wd kind) .badCode (.sto d a scope wd kind)
            else .error .unusedField
  | _ => .error .noMajor

/-- The number of planes that a BTAB with n targets reads: the bit length of n - 1 (R304). -/
def planeCount (n : Nat) : Nat := if n ≤ 1 then 0 else Nat.log2 (n - 1) + 1

/-- The checks of BTAB's fields (R304): 1 to 64 targets, an even d, and planes that lie within s0 to s63. -/
def btabLegal (d a : SReg) (list : List (BitVec 25)) : Bool :=
  decide (1 ≤ list.length) && decide (list.length ≤ 64) && SReg.even d &&
    (planeCount list.length == 0 || decide (a.toNat + planeCount list.length ≤ 64))

/-- Majors 0x30 to 0x3F: control flow (R299 to R305, R318). `rest` holds the words after the first. -/
def decodeFlow (w : Word) (rest : List Word) : Except Reject Instr :=
  let o := fOff25 w; let i := fImm w
  let a := fD w; let b := fA w
  match fMajor w with
  | 0x30 => .ok (.br o)
  | 0x31 => .ok (.call o)
  | 0x32 => guardOk (o == 0) .unusedField .ret
  | 0x33 => guardOk (fD w == 0 && fB w == 0 && fMinor w == 0) .unusedField (.jr (fA w))
  | 0x34 => .ok (.beq a b i)
  | 0x35 => .ok (.bne a b i)
  | 0x36 => .ok (.bltI32 a b i)
  | 0x37 => .ok (.bgeI32 a b i)
  | 0x38 => .ok (.bltN32 a b i)
  | 0x39 => .ok (.bgeN32 a b i)
  | 0x3A => guardOk (b == 0) .unusedField (.bz a i)
  | 0x3B => guardOk (b == 0) .unusedField (.bnz a i)
  | 0x3C => guardOk (w.extractLsb' 0 18 != 0) .loopEnd (.loop (w.extractLsb' 24 1) (w.extractLsb' 18 6) (w.extractLsb' 0 18))
  | 0x3D => guardOk (w.extractLsb' 0 24 == 0) .unusedField (.loopx (w.extractLsb' 24 1))
  | 0x3E =>
    let list := rest.map fOff25
    if w.extractLsb' 6 7 != 0 then .error .unusedField
    else if rest.any (fun x => fMajor x != 0) then .error .listWord
    else if !SReg.even (fD w) then .error .oddPair
    else guardOk (btabLegal (fD w) (fA w) list) .badCode (.btab (fD w) (fA w) list)
  | 0x3F => guardOk (fD w == 0 && !w.getLsbD 12) .unusedField (.trap (fA w) (w.extractLsb' 0 12))
  | _ => .error .noMajor

/-- Major 0x42, the BAR minors (R311). -/
def decodeBar (w : Word) : Except Reject Instr :=
  let d := fD w; let a := fA w; let b := fB w
  let scopeOk := decide (1 ≤ b.toNat) && decide (b.toNat ≤ 5)
  match (fMinor w).toNat with
  | 0x00 => .ok (.barInit d a b)
  | 0x01 => guardOk scopeOk .badCode (.barArrive d a b)
  | 0x02 => .ok (.barExpect d a b)
  | 0x03 => guardOk scopeOk .badCode (.barDrop d a b)
  | 0x04 => .ok (.barWait d a b)
  | 0x05 => .ok (.barTest d a b)
  | _ => .error .noMinor

/-- Majors 0x40 to 0x57: lane blocks, records, barriers, safe points, regions, the matrix engine. -/
def decodeSystem (w ext : Word) : Except Reject Instr :=
  let d := fD w; let a := fA w; let b := fB w; let m := fMinor w
  let ev3 := SReg.even d && SReg.even a && SReg.even b
  match fMajor w with
  | 0x40 => guardOk (d == 0 && w.extractLsb' 6 7 == 0) .unusedField (.lane a (w.extractLsb' 0 6) ext)
  | 0x41 => if w.extractLsb' 3 4 != 0 then .error .unusedField
            else if !SReg.even a then .error .oddPair
            else guardOk (decide ((w.extractLsb' 0 3).toNat ≤ 5)) .badCode (.spawn d a b (w.extractLsb' 0 3))
  | 0x42 => decodeBar w
  | 0x43 => if d == 0 && a == 0 && w.extractLsb' 10 3 == 0 then
              guardOk (w.extractLsb' 0 10 != 1023) .badCode (.safe (w.extractLsb' 0 10))
            else .error .unusedField
  | 0x44 => guardOk (d == 0 && a == 0 && !w.getLsbD 12) .unusedField (.enter (w.extractLsb' 0 12))
  | 0x45 => guardOk (fOff25 w == 0) .unusedField .leave
  | 0x50 => if m != 0 then .error .unusedField else guardOk ev3 .oddPair (.mma d a b ext)
  | 0x51 => if m != 0 then .error .unusedField else guardOk ev3 .oddPair (.mmas d a b ext)
  | 0x52 => if !ev3 then .error .oddPair
            else guardOk (decide ((w.extractLsb' 4 3).toNat ≤ 5)) .badCode (.mres d a b (w.extractLsb' 4 3) (w.extractLsb' 0 4))
  | 0x53 => guardOk (a == 0 && b == 0 && m == 0) .unusedField (.mcommit d)
  | 0x54 => guardOk (d == 0 && b == 0 && m == 0) .unusedField (.mwait a)
  | 0x55 => guardOk (fOff25 w == 0) .unusedField .mfence
  | 0x56 => guardOk (fOff25 w == 0) .unusedField .mresume
  | 0x57 => if a == 0 && b == 0 then guardOk (decide (m.toNat ≤ 3)) .badCode (.mstat d m) else .error .unusedField
  | _ => .error .noMajor

/-- The scalar decoder (R271): the instruction that the words begin with, and how many words it has. -/
def decodeScalar (ws : List Word) : Except Reject (Instr × Nat) :=
  match ws with
  | [] => .error .shortCode
  | w :: rest =>
    let n := scalarWords w
    if rest.length + 1 < n then .error .shortCode
    else
      let more := rest.take (n - 1)
      let ext := more.headD 0
      let mj := fMajor w
      let r :=
        if mj == 0x00 then decodeSys w
        else if mj == 0x01 then decodeAlu w
        else if mj ≤ 0x0F then decodeImm w ext
        else if mj ≤ 0x29 then decodeMem w
        else if mj ≤ 0x2E then decodeAccess w
        else if mj ≤ 0x3F then decodeFlow w more
        else decodeSystem w ext
      r.map (fun i => (i, n))

/-! ## Lane words -/

/-- How a lane opcode uses its fields: the TY values it allows, and which fields it uses (R278 check 1). -/
structure LaneShape where
  tys  : List Nat
  usesD : Bool
  usesA : Bool
  usesB : Bool
  usesC : Bool
  /-- IMM is an address offset. -/
  immOff : Bool
  /-- The word's MOD, pairs, groups and export register are legal. -/
  legal : Bool
  deriving DecidableEq, Repr

/-- TY 1, 2 and 6 to 9 (R319). -/
def tyInt : List Nat := [1, 2, 6, 7, 8, 9]
/-- TY F32, F16x2 and BF16x2 (R343). -/
def tyFloat : List Nat := [3, 4, 5]
def tyB32Int : List Nat := 0 :: tyInt
def tyAny : List Nat := [0, 1, 2, 3, 4, 5, 6, 7, 8, 9, 10, 11]

namespace LaneWord

/-- MOD as a number. -/
def mdn (w : LaneWord) : Nat := w.md.toNat
/-- MOD[2:0], RSEL in every opcode that rounds (R274). -/
def rsel (w : LaneWord) : Nat := w.mdn % 8
/-- MOD[6:4], RED (R321). -/
def red (w : LaneWord) : Nat := w.mdn / 16 % 8
/-- MOD[9:7], SM (R364). -/
def sm (w : LaneWord) : Nat := w.mdn / 128
/-- MOD[6:4], WD of VLD and VST (R367). -/
def wd (w : LaneWord) : Nat := w.mdn / 16 % 8
/-- MOD[3:1], ORD (R367, R377). -/
def ord (w : LaneWord) : Nat := w.mdn / 2 % 8
/-- MOD[0], REL (R367, R377). -/
def rel (w : LaneWord) : Bool := w.md.getLsbD 0
/-- MOD[9:8]: AM, BUF, ES. -/
def am (w : LaneWord) : Nat := w.mdn / 256
/-- MOD[7], W64 of VATOM and VRED (R372). -/
def aw64 (w : LaneWord) : Bool := w.md.getLsbD 7
/-- MOD[6:4], OPR (R372). -/
def opr (w : LaneWord) : Nat := w.mdn / 16 % 8
/-- MOD[7:5], WD of VLDB and VSTB (R370). -/
def bwd (w : LaneWord) : Nat := w.mdn / 32 % 8
/-- MOD[4], W64 of VLDF and VSTF (R377). -/
def fw64 (w : LaneWord) : Bool := w.md.getLsbD 4
/-- MOD[6:3], SRC of VCVT (R344). -/
def src (w : LaneWord) : Nat := w.mdn / 8 % 16
/-- MOD[8:7], PART of VCVT (R344). -/
def part (w : LaneWord) : Nat := w.mdn / 128 % 4
/-- TY as a number. -/
def tyn (w : LaneWord) : Nat := w.ty.toNat

end LaneWord

/-- A source code that names a vector register. -/
def isVec (c : BitVec 9) : Bool := decide (c.toNat ≤ 255)
/-- A source code that names an even window register, the first of a pair (R276). -/
def isWinPair (c : BitVec 9) : Bool := decide (256 ≤ c.toNat) && decide (c.toNat ≤ 271) && c.toNat % 2 == 0
/-- A source code that can start a 64-bit pair. -/
def isPair (c : BitVec 9) : Bool := isVec c || isWinPair c
/-- The element count of a type (R319). -/
def tyCount (ty : Nat) : Nat := if ty ≤ 3 then 1 else if ty ≤ 7 then 2 else 4

/-- MOD holds nothing but the bits of `mask`. -/
def mdIn (w : LaneWord) (mask : BitVec 10) : Bool := w.md &&& ~~~mask == 0

/-- The rules of RED, RSEL and TY for VREDX and VSCAN (R321, R336). -/
def redLegal (w : LaneWord) : Bool :=
  let fl := tyFloat.contains w.tyn
  decide (w.red ≤ 5) &&
    (if w.red ≤ 2 then tyInt.contains w.tyn || fl else w.tyn == 0) &&
    (if fl && w.red == 0 then decide (w.rsel ≤ 4) else w.rsel == 0)

/-- The rules of VCVT (R353, R354). -/
def cvtLegal (w : LaneWord) : Bool :=
  let s := w.src; let t := w.tyn
  let ns := tyCount s; let nd := tyCount t
  let bothInt := tyInt.contains s && tyInt.contains t
  let satOk := !w.md.getLsbD 9 || t == 11
  let rOk := decide (w.rsel ≤ 4) || (w.rsel == 5 && [4, 5, 10, 11].contains t)
  let partOk := if ns ≤ nd then w.part == 0 else decide (w.part < ns / nd)
  let groupOk := decide (nd ≤ ns) || (isVec w.a && w.holdA == 0)
  decide (1 ≤ s) && decide (s ≤ 11) && s != t && !bothInt && satOk && rOk && partOk && groupOk

/-- The address operands of SM 0 to 6 (R364). -/
def smLegal (sm : Nat) (w : LaneWord) : Bool :=
  if sm == 0 then isVec w.a && w.holdA == 0
  else if sm ≤ 4 then isWinPair w.b && w.holdB == 0 && w.a.toNat != 272
  else w.a.toNat != 272

/-- The SM value that AM of an atomic or reduction stands for (R372). -/
def smOfAm (am : Nat) (w64 : Bool) : Nat := if am == 0 then 0 else if am == 1 then (if w64 then 4 else 3) else 5

/-- The operation code of R75 that OPR and TY select (R373). -/
def atomCode (opr ty : Nat) : Option Nat :=
  match opr, ty with
  | 0, 0 => some 0 | 0, 1 => some 0 | 0, 2 => some 0 | 0, 3 => some 10 | 0, 4 => some 11 | 0, 5 => some 12
  | 1, 0 => some 1 | 2, 0 => some 2 | 3, 0 => some 3
  | 4, 1 => some 4 | 4, 2 => some 6 | 4, 3 => some 13
  | 5, 1 => some 5 | 5, 2 => some 7 | 5, 3 => some 14
  | 6, 0 => some 8 | 7, 0 => some 9
  | _, _ => none

/-- OPR, TY and W64 name an operation (R373). -/
def oprLegal (w : LaneWord) : Bool :=
  (atomCode w.opr w.tyn).isSome && !(w.aw64 && [3, 4, 5].contains w.tyn)

/-- D names an export register, s16 to s63 (R274). -/
def expLegal (w : LaneWord) : Bool := decide (16 ≤ w.d.toNat) && decide (w.d.toNat ≤ 63)

/-- The shape of a lane opcode, none when OP is unassigned (R277). The TY and MOD rules are those of R321, R343, R344,
R353 to R358, R367, R370 to R373, R375 to R377, R380 and R382. -/
def laneShape (op : Nat) (w : LaneWord) : Option LaneShape :=
  let m0 := w.md == 0
  let satOk := mdIn w 1 && !(w.md.getLsbD 0 && w.tyn == 0)
  let rnd := mdIn w 7 && decide (w.rsel ≤ 4)
  let two := fun tys ok => some (LaneShape.mk tys true true true false false ok)
  let one := fun tys ok => some (LaneShape.mk tys true true false false false ok)
  let three := fun tys ok => some (LaneShape.mk tys true true true true false ok)
  match op with
  | 0x00 => some ⟨[0], false, false, false, false, false, m0⟩
  | 0x01 | 0x02 => two tyB32Int m0
  | 0x03 => two tyB32Int satOk
  | 0x04 => two tyInt m0
  | 0x05 => three tyB32Int satOk
  | 0x06 | 0x07 | 0x08 | 0x09 => two [0] m0
  | 0x0A => two tyB32Int satOk
  | 0x0B | 0x0C => two tyB32Int m0
  | 0x0D | 0x0E => two tyInt m0
  | 0x0F | 0x10 => one [1, 6, 8] (mdIn w 1)
  | 0x11 => two tyB32Int (mdIn w 7 && decide (w.rsel ≤ 5) && (w.tyn != 0 || decide (w.rsel ≤ 1)))
  | 0x12 => three tyAny m0
  | 0x13 | 0x14 | 0x15 => one tyB32Int m0
  | 0x16 => two [0, 1, 2] m0
  | 0x17 => three [0] m0
  | 0x18 | 0x19 => two tyInt m0
  | 0x1A => three [8, 9] (mdIn w 3)
  | 0x1B => three [0] (mdIn w 0xFF)
  | 0x30 | 0x31 | 0x32 => two tyFloat rnd
  | 0x33 => three tyFloat rnd
  | 0x34 | 0x35 => two tyFloat m0
  | 0x36 => two tyFloat (mdIn w 7)
  | 0x37 => one tyFloat m0
  | 0x38 | 0x39 | 0x3A | 0x3B | 0x3C | 0x3E => one tyFloat rnd
  | 0x3D => some ⟨[1, 2, 3, 4, 5, 6, 7, 8, 9, 10, 11], true, true, false, w.rsel == 5, false, cvtLegal w⟩
  | 0x3F => two tyFloat rnd
  | 0x40 => one [0] (mdIn w 0xF && decide (w.mdn % 4 ≤ 2) && decide (w.mdn / 4 % 4 ≤ 2) && isVec w.a && w.holdA == 0)
  | 0x41 => one [0] (mdIn w 0xFF && decide (w.mdn % 4 ≤ 2) && decide (w.mdn / 8 < 8 / 2 ^ (w.mdn % 4)))
  | 0x42 | 0x43 => one [3] (mdIn w 0x37 && decide (w.rsel ≤ 4))
  | 0x60 | 0x61 => three [0] m0
  | 0x62 => if w.md.getLsbD 1 then two [0] (mdIn w 3) else three [0] (mdIn w 3)
  | 0x63 => if w.md.getLsbD 0 then one [0] (mdIn w 1) else three [0] (mdIn w 1)
  | 0x64 => one [0] (mdIn w 7 && expLegal w)
  | 0x65 => one tyAny (mdIn w 0x77 && redLegal w && expLegal w)
  | 0x66 => some ⟨tyAny, true, true, false, w.md.getLsbD 7, false, mdIn w 0xF7 && redLegal w⟩
  | 0x67 => some ⟨[0], true, true, !w.md.getLsbD 0, false, false,
      mdIn w 3 && expLegal w && (!w.md.getLsbD 1 || (isPair w.a && w.d.toNat % 2 == 0))⟩
  | 0x68 => one [0] (mdIn w 1 && (!w.md.getLsbD 0 || isPair w.a))
  | 0x80 => some ⟨[0, 1, 2], true, true, decide (1 ≤ w.sm) && decide (w.sm ≤ 4), false, true,
      decide (w.sm ≤ 6) && smLegal w.sm w && decide (w.wd ≤ 4) && !w.rel⟩
  | 0x81 => some ⟨[0], true, true, decide (1 ≤ w.sm) && decide (w.sm ≤ 4), false, true,
      decide (w.sm ≤ 6) && smLegal w.sm w && decide (w.wd ≤ 4) &&
        (if w.rel then decide (1 ≤ w.ord) && decide (w.ord ≤ 6) else w.ord == 0 || w.ord == 7)⟩
  | 0x82 => some ⟨[0, 1, 2, 3, 4, 5], true, true, w.am == 1, true, true,
      decide (w.am ≤ 2) && smLegal (smOfAm w.am w.aw64) w && oprLegal w &&
        (w.mdn / 4 % 4 != 0 || w.mdn % 4 == 0) && (!w.aw64 || isPair w.c)⟩
  | 0x83 => some ⟨[0, 1, 2, 3, 4, 5], true, true, w.am == 1, false, true,
      decide (w.am ≤ 1) && smLegal (smOfAm w.am w.aw64) w && oprLegal w && decide (w.opr ≤ 5) && w.mdn % 16 == 0⟩
  | 0x84 => some ⟨tyFloat, true, true, w.am == 1, true, true,
      decide (w.am ≤ 1) && smLegal (smOfAm w.am false) w && w.mdn % 256 == 0⟩
  | 0x85 => some ⟨[0], true, true, decide (1 ≤ w.sm), false, true,
      decide (w.sm ≤ 4) && smLegal w.sm w && w.mdn / 32 % 4 == 0 && [0, 4, 5, 6].contains w.ord && !w.rel⟩
  | 0x86 => some ⟨[0], true, true, decide (1 ≤ w.sm), false, true,
      decide (w.sm ≤ 4) && smLegal w.sm w && w.mdn / 32 % 4 == 0 && [0, 4, 5, 6].contains w.ord &&
        (w.rel || w.ord == 0 || w.ord == 4)⟩
  | 0x87 => some ⟨[0], true, w.md.getLsbD 9, !w.md.getLsbD 9, false, false,
      !w.md.getLsbD 0 && decide (w.ord ≤ 5) && (if w.md.getLsbD 9 then isVec w.a else isWinPair w.b)⟩
  | 0x88 => some ⟨[0], true, true, false, false, true, decide (w.am ≤ 2) && w.mdn % 256 == 0 && w.a.toNat != 272⟩
  | 0x89 => some ⟨[0, 1, 2], true, true, false, false, true,
      w.am != 0 && decide (w.bwd ≤ 4) && w.mdn % 32 == 0 && w.a.toNat != 272⟩
  | 0x8A => some ⟨[0], true, true, false, false, true,
      w.am != 0 && decide (w.bwd ≤ 4) && w.mdn % 32 == 0 && w.a.toNat != 272⟩
  | 0x8B => some ⟨[0], false, true, decide (1 ≤ w.sm) && decide (w.sm ≤ 4), false, true,
      (decide (w.sm ≤ 4) || w.sm == 6) && smLegal w.sm w && decide (w.mdn % 128 ≤ 1)⟩
  | _ => none

/-- One source field of check 1: a used one holds no reserved code, an unused one is zero with its HOLD. -/
def sourceOk (used : Bool) (code : BitVec 9) (hold : BitVec 2) : Bool :=
  hold != 3 && (if used then decide (code.toNat ≤ 275) else code == 0 && hold == 0)

/-- Check 1 of R278. -/
def laneLegal (op : Nat) (w : LaneWord) : Bool :=
  match laneShape op w with
  | none => false
  | some sh =>
    let immUsed := sh.immOff || (sh.usesA && w.a.toNat == 272) || (sh.usesB && w.b.toNat == 272) ||
      (sh.usesC && w.c.toNat == 272)
    sh.tys.contains w.tyn && sh.legal && sourceOk sh.usesA w.a w.holdA && sourceOk sh.usesB w.b w.holdB &&
      sourceOk sh.usesC w.c w.holdC && (sh.usesD || w.d == 0) && (immUsed || w.imm == 0)

/-- The instruction of a lane opcode (R277). -/
def laneInstr (op : Nat) (w : LaneWord) : Option Instr :=
  match op with
  | 0x00 => some (.vnop w) | 0x01 => some (.vadd w) | 0x02 => some (.vsub w) | 0x03 => some (.vmul w)
  | 0x04 => some (.vmulh w) | 0x05 => some (.vmad w) | 0x06 => some (.vand w) | 0x07 => some (.vor w)
  | 0x08 => some (.vxor w) | 0x09 => some (.vandn w) | 0x0A => some (.vshl w) | 0x0B => some (.vshr w)
  | 0x0C => some (.vsra w) | 0x0D => some (.vmin w) | 0x0E => some (.vmax w) | 0x0F => some (.vabs w)
  | 0x10 => some (.vneg w) | 0x11 => some (.vcmp w) | 0x12 => some (.vsel w) | 0x13 => some (.vpopc w)
  | 0x14 => some (.vclz w) | 0x15 => some (.vctz w) | 0x16 => some (.vbfe w) | 0x17 => some (.vbfi w)
  | 0x18 => some (.vaddsat w) | 0x19 => some (.vsubsat w) | 0x1A => some (.vdot4 w) | 0x1B => some (.vbool w)
  | 0x30 => some (.vfadd w) | 0x31 => some (.vfsub w) | 0x32 => some (.vfmul w) | 0x33 => some (.vfma w)
  | 0x34 => some (.vfmin w) | 0x35 => some (.vfmax w) | 0x36 => some (.vfcmp w) | 0x37 => some (.vfclass w)
  | 0x38 => some (.vrcp w) | 0x39 => some (.vrsq w) | 0x3A => some (.vsqrt w) | 0x3B => some (.vexp2 w)
  | 0x3C => some (.vlog2 w) | 0x3D => some (.vcvt w) | 0x3E => some (.vfrnd w) | 0x3F => some (.vscale w)
  | 0x40 => some (.vpack w) | 0x41 => some (.vunpk w) | 0x42 => some (.vmxq w) | 0x43 => some (.vmxd w)
  | 0x60 => some (.vshuf w) | 0x61 => some (.vshufx w) | 0x62 => some (.vshift w) | 0x63 => some (.vbcast w)
  | 0x64 => some (.vvote w) | 0x65 => some (.vredx w) | 0x66 => some (.vscan w) | 0x67 => some (.vxs w)
  | 0x68 => some (.vmatch w)
  | 0x80 => some (.vld w) | 0x81 => some (.vst w) | 0x82 => some (.vatom w) | 0x83 => some (.vred w)
  | 0x84 => some (.vredo w) | 0x85 => some (.vldf w) | 0x86 => some (.vstf w) | 0x87 => some (.vspawn w)
  | 0x88 => some (.vldt w) | 0x89 => some (.vldb w) | 0x8A => some (.vstb w) | 0x8B => some (.vpref w)
  | _ => none

/-- OP of a 96-bit lane word (R274). -/
def laneOp (x : BitVec 96) : Nat := (x.extractLsb' 87 8).toNat

/-- The other fields of a 96-bit lane word (R274). -/
def laneFields (x : BitVec 96) : LaneWord :=
  { sw := x.getLsbD 95, ty := x.extractLsb' 83 4, d := x.extractLsb' 75 8, a := x.extractLsb' 66 9,
    b := x.extractLsb' 57 9, c := x.extractLsb' 48 9, holdA := x.extractLsb' 46 2, holdB := x.extractLsb' 44 2,
    holdC := x.extractLsb' 42 2, md := x.extractLsb' 32 10, imm := x.extractLsb' 0 32 }

/-- The lane decoder: an instruction, or F_ILL under check 1 of R278. -/
def decodeLane (x : BitVec 96) : Except Reject Instr :=
  let w := laneFields x
  match laneInstr (laneOp x) w with
  | none => .error .noLaneOp
  | some i => if laneLegal (laneOp x) w then .ok i else .error .laneField


/-! ## Loader and storer words (R144, R152) -/

/-- The register operations, each with its opcode, funct7 and funct3 (RV64IM, Zba, Zbb). -/
def rvAluRows : List (RvAlu × Nat × Nat × Nat) :=
  [(.add, 0x33, 0x00, 0), (.sub, 0x33, 0x20, 0), (.sll, 0x33, 0x00, 1), (.slt, 0x33, 0x00, 2), (.sltu, 0x33, 0x00, 3),
   (.xor, 0x33, 0x00, 4), (.srl, 0x33, 0x00, 5), (.sra, 0x33, 0x20, 5), (.or, 0x33, 0x00, 6), (.and, 0x33, 0x00, 7),
   (.mul, 0x33, 0x01, 0), (.mulh, 0x33, 0x01, 1), (.mulhsu, 0x33, 0x01, 2), (.mulhu, 0x33, 0x01, 3),
   (.div, 0x33, 0x01, 4), (.divu, 0x33, 0x01, 5), (.rem, 0x33, 0x01, 6), (.remu, 0x33, 0x01, 7),
   (.sh1add, 0x33, 0x10, 2), (.sh2add, 0x33, 0x10, 4), (.sh3add, 0x33, 0x10, 6)] ++
  [(.andn, 0x33, 0x20, 7), (.orn, 0x33, 0x20, 6), (.xnor, 0x33, 0x20, 4), (.min, 0x33, 0x05, 4), (.minu, 0x33, 0x05, 5),
   (.max, 0x33, 0x05, 6), (.maxu, 0x33, 0x05, 7), (.rol, 0x33, 0x30, 1), (.ror, 0x33, 0x30, 5),
   (.addw, 0x3B, 0x00, 0), (.subw, 0x3B, 0x20, 0), (.sllw, 0x3B, 0x00, 1), (.srlw, 0x3B, 0x00, 5), (.sraw, 0x3B, 0x20, 5),
   (.mulw, 0x3B, 0x01, 0), (.divw, 0x3B, 0x01, 4), (.divuw, 0x3B, 0x01, 5), (.remw, 0x3B, 0x01, 6), (.remuw, 0x3B, 0x01, 7),
   (.adduw, 0x3B, 0x04, 0), (.sh1adduw, 0x3B, 0x10, 2), (.sh2adduw, 0x3B, 0x10, 4), (.sh3adduw, 0x3B, 0x10, 6),
   (.rolw, 0x3B, 0x30, 1), (.rorw, 0x3B, 0x30, 5)]

/-- The 12-bit immediate operations: opcode and funct3. -/
def rvImmRows : List (RvImm × Nat × Nat) :=
  [(.addi, 0x13, 0), (.slti, 0x13, 2), (.sltiu, 0x13, 3), (.xori, 0x13, 4), (.ori, 0x13, 6), (.andi, 0x13, 7), (.addiw, 0x1B, 0)]

/-- The shift-immediate operations: opcode, instruction bits [31:26], funct3, and whether the amount has six bits. -/
def rvShiftRows : List (RvShift × Nat × Nat × Nat × Bool) :=
  [(.slli, 0x13, 0x00, 1, true), (.srli, 0x13, 0x00, 5, true), (.srai, 0x13, 0x10, 5, true), (.rori, 0x13, 0x18, 5, true),
   (.slliw, 0x1B, 0x00, 1, false), (.srliw, 0x1B, 0x00, 5, false), (.sraiw, 0x1B, 0x10, 5, false),
   (.roriw, 0x1B, 0x18, 5, false), (.slliuw, 0x1B, 0x02, 1, true)]

/-- The one-operand operations: opcode, instruction bits [31:20], funct3. -/
def rvUnaryRows : List (RvUnary × Nat × Nat × Nat) :=
  [(.clz, 0x13, 0x600, 1), (.ctz, 0x13, 0x601, 1), (.cpop, 0x13, 0x602, 1), (.sextb, 0x13, 0x604, 1), (.sexth, 0x13, 0x605, 1),
   (.clzw, 0x1B, 0x600, 1), (.ctzw, 0x1B, 0x601, 1), (.cpopw, 0x1B, 0x602, 1), (.zexth, 0x3B, 0x080, 4),
   (.orcb, 0x13, 0x287, 5), (.rev8, 0x13, 0x6B8, 5)]

/-- The conditional branches and their funct3. -/
def rvBranchRows : List (RvBranch × Nat) := [(.beq, 0), (.bne, 1), (.blt, 4), (.bge, 5), (.bltu, 6), (.bgeu, 7)]

/-- The atomic memory operations and their funct5. -/
def rvAmoRows : List (RvAmo × Nat) :=
  [(.swap, 1), (.add, 0), (.xor, 4), (.and, 12), (.or, 8), (.min, 16), (.max, 20), (.minu, 24), (.maxu, 28)]

/-- The loads: width, zero extension, funct3. -/
def rvLoadRows : List (RvWidth × Bool × Nat) :=
  [(.b, false, 0), (.h, false, 1), (.w, false, 2), (.d, false, 3), (.b, true, 4), (.h, true, 5), (.w, true, 6)]

/-- The stores and their funct3. -/
def rvStoreRows : List (RvWidth × Nat) := [(.b, 0), (.h, 1), (.w, 2), (.d, 3)]

/-- The accesses to control and status registers and their funct3 with a register source. -/
def rvCsrRows : List (RvCsr × Nat) := [(.rw, 1), (.rs, 2), (.rc, 3)]

/-- The Xqtl instruction of a funct3, funct7 and its register fields (R152). -/
def decodeXqtl (f3 f7 : Nat) (rd rs1 rs2 : XReg) : Option Instr :=
  let z := rs2 == 0
  match f3, f7 with
  | 0, 0 => if z then some (.tld rd rs1) else none
  | 0, 1 => if z then some (.tldt rd rs1) else none
  | 0, 2 => if z then some (.tlds rd rs1) else none
  | 0, 3 => if z then some (.tgath rd rs1) else none
  | 0, 4 => if z then some (.tst rd rs1) else none
  | 0, 5 => if z then some (.tcopy rd rs1) else none
  | 1, 0 => if z then some (.tbarArrive rd rs1) else none
  | 1, 1 => some (.tbarExpect rd rs1 rs2)
  | 1, 2 => some (.tbarWait rd rs1 rs2)
  | 1, 3 => some (.tbarTest rd rs1 rs2)
  | 2, 0 => if z then some (.twait rd rs1) else none
  | 2, 1 => if z && rd == 0 && rs1 == 0 then some .tfence else none
  | 3, 0 => if z then some (.tstat rd rs1) else none
  | 3, 1 => if z then some (.tres rd rs1) else none
  | 3, 2 => if z then some (.tkill rd rs1) else none
  | _, _ => none

def rvRd (w : Word) : XReg := w.extractLsb' 7 5
def rvRs1 (w : Word) : XReg := w.extractLsb' 15 5
def rvRs2 (w : Word) : XReg := w.extractLsb' 20 5
def rvF3 (w : Word) : Nat := (w.extractLsb' 12 3).toNat
def rvF7 (w : Word) : Nat := (w.extractLsb' 25 7).toNat
def rvImm12 (w : Word) : BitVec 12 := w.extractLsb' 20 12

/-- An instruction of two bytes more or less, as an `Instr`. -/
def rvLong (o : RvOp) : Except Reject Instr := .ok (.riscvInstruction o false)

/-- The register, immediate, shift and one-operand forms. -/
def decodeRvAlu (w : Word) : Option RvOp :=
  let opc := w.toNat % 128
  let f3 := rvF3 w
  match rvUnaryRows.find? (fun r => r.2.1 == opc && r.2.2.1 == (rvImm12 w).toNat && r.2.2.2 == f3) with
  | some r => some (.unary r.1 (rvRd w) (rvRs1 w))
  | none =>
    if opc == 0x33 || opc == 0x3B then
      (rvAluRows.find? (fun r => r.2.1 == opc && r.2.2.1 == rvF7 w && r.2.2.2 == f3)).map
        (fun r => .alu r.1 (rvRd w) (rvRs1 w) (rvRs2 w))
    else
      match rvImmRows.find? (fun r => r.2.1 == opc && r.2.2 == f3) with
      | some r => some (.imm r.1 (rvRd w) (rvRs1 w) (rvImm12 w))
      | none =>
        (rvShiftRows.find? (fun r => r.2.1 == opc && r.2.2.1 == (w.extractLsb' 26 6).toNat && r.2.2.2.1 == f3 &&
          (r.2.2.2.2 || !w.getLsbD 25))).map (fun r => .shift r.1 (rvRd w) (rvRs1 w) (w.extractLsb' 20 6))

/-- SYSTEM: ECALL, WFI and the accesses to control and status registers. EBREAK, MRET, SRET and the others are illegal (R144). -/
def decodeRvSystem (w : Word) : Except Reject Instr :=
  let f3 := rvF3 w
  if f3 == 0 then
    if w == 0x00000073 then .ok .ecall
    else if w == 0x10500073 then rvLong .wfi
    else .error .noRv
  else match rvCsrRows.find? (fun r => r.2 == f3 % 4) with
    | some r => rvLong (.csr r.1 (decide (4 ≤ f3)) (rvRd w) (rvRs1 w) (rvImm12 w))
    | none => .error .noRv

/-- LR, SC and the AMOs. -/
def decodeRvAmo (w : Word) : Option RvOp :=
  let f3 := rvF3 w
  let f5 := (w.extractLsb' 27 5).toNat
  let ar : BitVec 2 := w.extractLsb' 25 2
  let dbl := f3 == 3
  if f3 != 2 && f3 != 3 then none
  else if f5 == 2 then (if rvRs2 w == 0 then some (.lr dbl ar (rvRd w) (rvRs1 w)) else none)
  else if f5 == 3 then some (.sc dbl ar (rvRd w) (rvRs1 w) (rvRs2 w))
  else (rvAmoRows.find? (fun r => r.2 == f5)).map (fun r => .amo r.1 dbl ar (rvRd w) (rvRs1 w) (rvRs2 w))

/-- A 32-bit loader or storer word. FENCE.I, EBREAK, MRET and the rest that R144 names are illegal. -/
def decodeRv32 (w : Word) : Except Reject Instr :=
  let rd := rvRd w; let rs1 := rvRs1 w; let rs2 := rvRs2 w; let f3 := rvF3 w
  let ofOpt := fun o : Option RvOp => match o with | some o => rvLong o | none => .error .noRv
  match w.toNat % 128 with
  | 0x37 => rvLong (.lui rd (w.extractLsb' 12 20))
  | 0x17 => rvLong (.auipc rd (w.extractLsb' 12 20))
  | 0x6F => rvLong (.jal rd (w.extractLsb' 31 1 ++ w.extractLsb' 12 8 ++ w.extractLsb' 20 1 ++ w.extractLsb' 21 10))
  | 0x67 => if f3 == 0 then rvLong (.jalr rd rs1 (rvImm12 w)) else .error .noRv
  | 0x63 => ofOpt ((rvBranchRows.find? (fun r => r.2 == f3)).map (fun r => .branch r.1 rs1 rs2
      (w.extractLsb' 31 1 ++ w.extractLsb' 7 1 ++ w.extractLsb' 25 6 ++ w.extractLsb' 8 4)))
  | 0x03 => ofOpt ((rvLoadRows.find? (fun r => r.2.2 == f3)).map (fun r => .load r.1 r.2.1 rd rs1 (rvImm12 w)))
  | 0x23 => ofOpt ((rvStoreRows.find? (fun r => r.2 == f3)).map (fun r => .store r.1 rs1 rs2
      (w.extractLsb' 25 7 ++ w.extractLsb' 7 5)))
  | 0x13 | 0x1B | 0x33 | 0x3B => ofOpt (decodeRvAlu w)
  | 0x0F => if f3 == 0 then rvLong (.fence (w.extractLsb' 28 4) (w.extractLsb' 24 4) (w.extractLsb' 20 4) rd rs1) else .error .noRv
  | 0x73 => decodeRvSystem w
  | 0x2F => ofOpt (decodeRvAmo w)
  | 0x0B => match decodeXqtl f3 (rvF7 w) rd rs1 rs2 with
    | some i => .ok i
    | none => .error .noXqtl
  | _ => .error .noRv

/-! ### Compressed words -/

/-- The full register that a three-bit field names. -/
def rvcReg (r : BitVec 3) : XReg := 1#2 ++ r

/-- Quadrant 0 of the compressed words. -/
def decodeRvc0 (h : BitVec 16) : Option RvOp :=
  let rd := rvcReg (h.extractLsb' 2 3)
  let rs1 := rvcReg (h.extractLsb' 7 3)
  let sp4 : BitVec 12 := 0#2 ++ h.extractLsb' 7 4 ++ h.extractLsb' 11 2 ++ h.extractLsb' 5 1 ++ h.extractLsb' 6 1 ++ 0#2
  let w4 : BitVec 12 := 0#5 ++ h.extractLsb' 5 1 ++ h.extractLsb' 10 3 ++ h.extractLsb' 6 1 ++ 0#2
  let d8 : BitVec 12 := 0#4 ++ h.extractLsb' 5 2 ++ h.extractLsb' 10 3 ++ 0#3
  match (h.extractLsb' 13 3).toNat with
  | 0 => if sp4 == 0 then none else some (.imm .addi rd 2 sp4)
  | 2 => some (.load .w false rd rs1 w4)
  | 3 => some (.load .d false rd rs1 d8)
  | 6 => some (.store .w rs1 rd w4)
  | 7 => some (.store .d rs1 rd d8)
  | _ => none

/-- The register arithmetic of quadrant 1, funct3 4. -/
def decodeRvcAlu (h : BitVec 16) : Option RvOp :=
  let rd := rvcReg (h.extractLsb' 7 3)
  let rs2 := rvcReg (h.extractLsb' 2 3)
  let sh : BitVec 6 := h.extractLsb' 12 1 ++ h.extractLsb' 2 5
  match (h.extractLsb' 10 2).toNat with
  | 0 => some (.shift .srli rd rd sh)
  | 1 => some (.shift .srai rd rd sh)
  | 2 => some (.imm .andi rd rd (sh.signExtend 12))
  | _ =>
    match (h.extractLsb' 12 1).toNat, (h.extractLsb' 5 2).toNat with
    | 0, 0 => some (.alu .sub rd rd rs2)
    | 0, 1 => some (.alu .xor rd rd rs2)
    | 0, 2 => some (.alu .or rd rd rs2)
    | 0, _ => some (.alu .and rd rd rs2)
    | _, 0 => some (.alu .subw rd rd rs2)
    | _, 1 => some (.alu .addw rd rd rs2)
    | _, _ => none

/-- Quadrant 1 of the compressed words. -/
def decodeRvc1 (h : BitVec 16) : Option RvOp :=
  let rd : XReg := h.extractLsb' 7 5
  let i6 : BitVec 6 := h.extractLsb' 12 1 ++ h.extractLsb' 2 5
  let r3 := rvcReg (h.extractLsb' 7 3)
  let j : BitVec 11 := h.extractLsb' 12 1 ++ h.extractLsb' 8 1 ++ h.extractLsb' 9 2 ++ h.extractLsb' 6 1 ++ h.extractLsb' 7 1 ++
    h.extractLsb' 2 1 ++ h.extractLsb' 11 1 ++ h.extractLsb' 3 3
  let b : BitVec 8 := h.extractLsb' 12 1 ++ h.extractLsb' 5 2 ++ h.extractLsb' 2 1 ++ h.extractLsb' 10 2 ++ h.extractLsb' 3 2
  let sp16 : BitVec 10 := h.extractLsb' 12 1 ++ h.extractLsb' 3 2 ++ h.extractLsb' 5 1 ++ h.extractLsb' 2 1 ++
    h.extractLsb' 6 1 ++ 0#4
  match (h.extractLsb' 13 3).toNat with
  | 0 => some (.imm .addi rd rd (i6.signExtend 12))
  | 1 => if rd == 0 then none else some (.imm .addiw rd rd (i6.signExtend 12))
  | 2 => some (.imm .addi rd 0 (i6.signExtend 12))
  | 3 => if rd == 2 then (if sp16 == 0 then none else some (.imm .addi 2 2 (sp16.signExtend 12)))
         else if i6 == 0 then none else some (.lui rd (i6.signExtend 20))
  | 4 => decodeRvcAlu h
  | 5 => some (.jal 0 (j.signExtend 20))
  | 6 => some (.branch .beq r3 0 (b.signExtend 12))
  | _ => some (.branch .bne r3 0 (b.signExtend 12))

/-- Quadrant 2 of the compressed words. -/
def decodeRvc2 (h : BitVec 16) : Option RvOp :=
  let rd : XReg := h.extractLsb' 7 5
  let rs2 : XReg := h.extractLsb' 2 5
  let i6 : BitVec 6 := h.extractLsb' 12 1 ++ h.extractLsb' 2 5
  let lw : BitVec 12 := 0#4 ++ h.extractLsb' 2 2 ++ h.extractLsb' 12 1 ++ h.extractLsb' 4 3 ++ 0#2
  let ld : BitVec 12 := 0#3 ++ h.extractLsb' 2 3 ++ h.extractLsb' 12 1 ++ h.extractLsb' 5 2 ++ 0#3
  let sw : BitVec 12 := 0#4 ++ h.extractLsb' 7 2 ++ h.extractLsb' 9 4 ++ 0#2
  let sd : BitVec 12 := 0#3 ++ h.extractLsb' 7 3 ++ h.extractLsb' 10 3 ++ 0#3
  match (h.extractLsb' 13 3).toNat with
  | 0 => some (.shift .slli rd rd i6)
  | 2 => if rd == 0 then none else some (.load .w false rd 2 lw)
  | 3 => if rd == 0 then none else some (.load .d false rd 2 ld)
  | 4 =>
    if h.getLsbD 12 then
      if rs2 != 0 then some (.alu .add rd rd rs2)
      else if rd == 0 then none else some (.jalr 1 rd 0)
    else
      if rs2 != 0 then some (.alu .add rd 0 rs2)
      else if rd == 0 then none else some (.jalr 0 rd 0)
  | 6 => some (.store .w 2 rs2 sw)
  | 7 => some (.store .d 2 rs2 sd)
  | _ => none

/-- A 16-bit loader or storer word of the C extension for RV64 without floating point. -/
def decodeRvc (h : BitVec 16) : Except Reject Instr :=
  let o := match h.toNat % 4 with
    | 0 => decodeRvc0 h
    | 1 => decodeRvc1 h
    | 2 => decodeRvc2 h
    | _ => none
  match o with
  | some o => .ok (.riscvInstruction o true)
  | none => .error .noRv

/-- The loader and storer decoder: the instruction at a pc whose next four bytes are `w`, and its length in bytes. -/
def decodeRv (w : Word) : Except Reject (Instr × Nat) :=
  if w.toNat % 4 == 3 then (decodeRv32 w).map (fun i => (i, 4))
  else (decodeRvc (w.extractLsb' 0 16)).map (fun i => (i, 2))

/-- The instruction of a table row's word. The Xqtl rows and the scalar rows share 32-bit words (a scalar stream and a loader
never fetch each other's): a legal Xqtl word is read as Xqtl, but for 0x0200000B, which is read as SRA (log 10). 96 bits
are a lane word. -/
def decodeTableWord (nbits w : Nat) : Option Instr :=
  if 64 < nbits then (decodeLane (BitVec.ofNat 96 w)).toOption
  else if nbits ≤ 16 then (decodeRvc (BitVec.ofNat 16 w)).toOption
  else
    let x := BitVec.ofNat 32 w
    let scalar := ((decodeScalar (x :: BitVec.ofNat 32 (w >>> 32) :: List.replicate 63 0)).toOption).map (·.1)
    if w % 128 == 0x0B && w != 0x0200000B then
      match decodeXqtl (rvF3 x) (rvF7 x) (rvRd x) (rvRs1 x) (rvRs2 x) with
      | some i => some i
      | none => scalar
    else match scalar with
      | some i => some i
      | none => ((decodeRv x).toOption).map (·.1)

/-! ## Encoders -/

/-- A scalar word of format SR. -/
def encSR (mj : Nat) (d a b : SReg) (m : Nat) : Word := BitVec.ofNat 7 mj ++ d ++ a ++ b ++ BitVec.ofNat 7 m
/-- A scalar word of format SI or SB. -/
def encSI (mj : Nat) (d a : SReg) (i : BitVec 13) : Word := BitVec.ofNat 7 mj ++ d ++ a ++ i
/-- A scalar word of format SJ. -/
def encSJ (mj : Nat) (o : BitVec 25) : Word := BitVec.ofNat 7 mj ++ o

/-- The words of a scalar instruction (R270 to R273); no word for any other. -/
def encodeScalar (i : Instr) : List Word :=
  match i with
  | .nop => [encSR 0 0 0 0 0] | .done => [encSR 0 0 0 0 1] | .tret => [encSR 0 0 0 0 2] | .yield => [encSR 0 0 0 0 3]
  | .fence s k => [encSR 0 s k 0 4] | .getr d ix => [encSR 0 d 0 ix 5] | .setr a ix => [encSR 0 0 a ix 6]
  | .lwait => [encSR 0 0 0 0 7]
  | .add d a b => [encSR 1 d a b 0x00] | .sub d a b => [encSR 1 d a b 0x01] | .mul d a b => [encSR 1 d a b 0x02]
  | .mulhI32 d a b => [encSR 1 d a b 0x03] | .mulhN32 d a b => [encSR 1 d a b 0x04] | .and d a b => [encSR 1 d a b 0x05]
  | .or d a b => [encSR 1 d a b 0x06] | .xor d a b => [encSR 1 d a b 0x07] | .andn d a b => [encSR 1 d a b 0x08]
  | .shl d a b => [encSR 1 d a b 0x09] | .shr d a b => [encSR 1 d a b 0x0A] | .sra d a b => [encSR 1 d a b 0x0B]
  | .minI32 d a b => [encSR 1 d a b 0x0C] | .minN32 d a b => [encSR 1 d a b 0x0D] | .maxI32 d a b => [encSR 1 d a b 0x0E]
  | .maxN32 d a b => [encSR 1 d a b 0x0F] | .sltI32 d a b => [encSR 1 d a b 0x10] | .sltN32 d a b => [encSR 1 d a b 0x11]
  | .seq d a b => [encSR 1 d a b 0x12] | .sel d a b => [encSR 1 d a b 0x13] | .popc d a => [encSR 1 d a 0 0x14]
  | .clz d a => [encSR 1 d a 0 0x15] | .ctz d a => [encSR 1 d a 0 0x16] | .bfe d a b => [encSR 1 d a b 0x17]
  | .add64 d a b => [encSR 1 d a b 0x18] | .sub64 d a b => [encSR 1 d a b 0x19]
  | .addi d a i => [encSI 0x02 d a i] | .andi d a i => [encSI 0x03 d a i] | .ori d a i => [encSI 0x04 d a i]
  | .xori d a i => [encSI 0x05 d a i] | .shli d a h => [encSI 0x06 d a (h.setWidth 13)]
  | .shri d a h => [encSI 0x07 d a (h.setWidth 13)] | .srai d a h => [encSI 0x08 d a (h.setWidth 13)]
  | .slti d a i => [encSI 0x09 d a i] | .seqi d a i => [encSI 0x0A d a i] | .muli d a i => [encSI 0x0B d a i]
  | .li d i => [encSI 0x0C d 0 i] | .lix d e => [encSI 0x0D d 0 0, e] | .addix d a e => [encSI 0x0E d a 0, e]
  | .adda d a i => [encSI 0x0F d a i]
  | .ldB32 d a i => [encSI 0x20 d a i] | .ldB64 d a i => [encSI 0x21 d a i] | .ldN8 d a i => [encSI 0x22 d a i]
  | .ldI8 d a i => [encSI 0x23 d a i] | .ldN16 d a i => [encSI 0x24 d a i] | .ldI16 d a i => [encSI 0x25 d a i]
  | .stB32 d a i => [encSI 0x26 d a i] | .stB64 d a i => [encSI 0x27 d a i] | .stB8 d a i => [encSI 0x28 d a i]
  | .stB16 d a i => [encSI 0x29 d a i]
  | .atom d a b w c => [BitVec.ofNat 7 0x2A ++ d ++ a ++ b ++ 0#2 ++ BitVec.ofBool w ++ c]
  | .ldsp d a b m => [BitVec.ofNat 7 0x2B ++ d ++ a ++ b ++ m] | .stsp d a b m => [BitVec.ofNat 7 0x2C ++ d ++ a ++ b ++ m]
  | .ldo d a sc w k => [BitVec.ofNat 7 0x2D ++ d ++ a ++ 0#6 ++ sc ++ BitVec.ofBool w ++ 0#1 ++ k]
  | .sto d a sc w k => [BitVec.ofNat 7 0x2E ++ d ++ a ++ 0#6 ++ sc ++ BitVec.ofBool w ++ 0#1 ++ k]
  | .br o => [encSJ 0x30 o] | .call o => [encSJ 0x31 o] | .ret => [encSJ 0x32 0] | .jr a => [encSR 0x33 0 a 0 0]
  | .beq a b i => [encSI 0x34 a b i] | .bne a b i => [encSI 0x35 a b i] | .bltI32 a b i => [encSI 0x36 a b i]
  | .bgeI32 a b i => [encSI 0x37 a b i] | .bltN32 a b i => [encSI 0x38 a b i] | .bgeN32 a b i => [encSI 0x39 a b i]
  | .bz a i => [encSI 0x3A a 0 i] | .bnz a i => [encSI 0x3B a 0 i]
  | .loop k c o => [BitVec.ofNat 7 0x3C ++ k ++ c ++ o] | .loopx k => [BitVec.ofNat 7 0x3D ++ k ++ 0#24]
  | .btab d a l => (BitVec.ofNat 7 0x3E ++ d ++ a ++ 0#7 ++ BitVec.ofNat 6 (l.length - 1)) :: l.map (encSJ 0)
  | .trap a c => [BitVec.ofNat 7 0x3F ++ 0#6 ++ a ++ 0#1 ++ c]
  | .lane a n ix => [BitVec.ofNat 7 0x40 ++ 0#6 ++ a ++ 0#7 ++ n, ix]
  | .spawn d a b sc => [BitVec.ofNat 7 0x41 ++ d ++ a ++ b ++ 0#4 ++ sc]
  | .barInit d a b => [encSR 0x42 d a b 0] | .barArrive d a s => [encSR 0x42 d a s 1] | .barExpect d a b => [encSR 0x42 d a b 2]
  | .barDrop d a s => [encSR 0x42 d a s 3] | .barWait d a b => [encSR 0x42 d a b 4] | .barTest d a b => [encSR 0x42 d a b 5]
  | .safe n => [BitVec.ofNat 7 0x43 ++ 0#15 ++ n] | .enter id => [BitVec.ofNat 7 0x44 ++ 0#13 ++ id] | .leave => [encSJ 0x45 0]
  | .mma d a b e => [encSR 0x50 d a b 0, e] | .mmas d a b e => [encSR 0x51 d a b 0, e]
  | .mres d a b t m => [BitVec.ofNat 7 0x52 ++ d ++ a ++ b ++ t ++ m]
  | .mcommit d => [encSR 0x53 d 0 0 0] | .mwait a => [encSR 0x54 0 a 0 0] | .mfence => [encSJ 0x55 0]
  | .mresume => [encSJ 0x56 0] | .mstat d m => [BitVec.ofNat 7 0x57 ++ d ++ 0#12 ++ m]
  | _ => []

/-- OP and the fields of a lane instruction (R277), none for any other. -/
def laneParts (i : Instr) : Option (Nat × LaneWord) :=
  match i with
  | .vnop w => some (0x00, w) | .vadd w => some (0x01, w) | .vsub w => some (0x02, w) | .vmul w => some (0x03, w)
  | .vmulh w => some (0x04, w) | .vmad w => some (0x05, w) | .vand w => some (0x06, w) | .vor w => some (0x07, w)
  | .vxor w => some (0x08, w) | .vandn w => some (0x09, w) | .vshl w => some (0x0A, w) | .vshr w => some (0x0B, w)
  | .vsra w => some (0x0C, w) | .vmin w => some (0x0D, w) | .vmax w => some (0x0E, w) | .vabs w => some (0x0F, w)
  | .vneg w => some (0x10, w) | .vcmp w => some (0x11, w) | .vsel w => some (0x12, w) | .vpopc w => some (0x13, w)
  | .vclz w => some (0x14, w) | .vctz w => some (0x15, w) | .vbfe w => some (0x16, w) | .vbfi w => some (0x17, w)
  | .vaddsat w => some (0x18, w) | .vsubsat w => some (0x19, w) | .vdot4 w => some (0x1A, w) | .vbool w => some (0x1B, w)
  | .vfadd w => some (0x30, w) | .vfsub w => some (0x31, w) | .vfmul w => some (0x32, w) | .vfma w => some (0x33, w)
  | .vfmin w => some (0x34, w) | .vfmax w => some (0x35, w) | .vfcmp w => some (0x36, w) | .vfclass w => some (0x37, w)
  | .vrcp w => some (0x38, w) | .vrsq w => some (0x39, w) | .vsqrt w => some (0x3A, w) | .vexp2 w => some (0x3B, w)
  | .vlog2 w => some (0x3C, w) | .vcvt w => some (0x3D, w) | .vfrnd w => some (0x3E, w) | .vscale w => some (0x3F, w)
  | .vpack w => some (0x40, w) | .vunpk w => some (0x41, w) | .vmxq w => some (0x42, w) | .vmxd w => some (0x43, w)
  | .vshuf w => some (0x60, w) | .vshufx w => some (0x61, w) | .vshift w => some (0x62, w) | .vbcast w => some (0x63, w)
  | .vvote w => some (0x64, w) | .vredx w => some (0x65, w) | .vscan w => some (0x66, w) | .vxs w => some (0x67, w)
  | .vmatch w => some (0x68, w)
  | .vld w => some (0x80, w) | .vst w => some (0x81, w) | .vatom w => some (0x82, w) | .vred w => some (0x83, w)
  | .vredo w => some (0x84, w) | .vldf w => some (0x85, w) | .vstf w => some (0x86, w) | .vspawn w => some (0x87, w)
  | .vldt w => some (0x88, w) | .vldb w => some (0x89, w) | .vstb w => some (0x8A, w) | .vpref w => some (0x8B, w)
  | _ => none

/-- The 96 bits of a lane word (R274). -/
def encLaneWord (op : Nat) (w : LaneWord) : BitVec 96 :=
  BitVec.ofBool w.sw ++ BitVec.ofNat 8 op ++ w.ty ++ w.d ++ w.a ++ w.b ++ w.c ++ w.holdA ++ w.holdB ++ w.holdC ++ w.md ++ w.imm

/-- The bits of a lane instruction; zero for any other. -/
def encodeLane (i : Instr) : BitVec 96 :=
  match laneParts i with
  | some (op, w) => encLaneWord op w
  | none => 0

/-- The row of an operation, by its first component. -/
def rowOf {α β : Type} [BEq α] (rows : List (α × β)) (x : α) : Option β := (rows.find? (fun r => r.1 == x)).map (·.2)

/-- A word of the RISC-V R layout. -/
def encR (f7 : Nat) (rs2 rs1 : XReg) (f3 : Nat) (rd : XReg) (opc : Nat) : Word :=
  BitVec.ofNat 7 f7 ++ rs2 ++ rs1 ++ BitVec.ofNat 3 f3 ++ rd ++ BitVec.ofNat 7 opc
/-- A word of the RISC-V I layout. -/
def encI (imm : BitVec 12) (rs1 : XReg) (f3 : Nat) (rd : XReg) (opc : Nat) : Word :=
  imm ++ rs1 ++ BitVec.ofNat 3 f3 ++ rd ++ BitVec.ofNat 7 opc

/-- The 32-bit word of a RISC-V operation. -/
def encodeRvOp (o : RvOp) : Option Word :=
  match o with
  | .lui rd i => some (i ++ rd ++ BitVec.ofNat 7 0x37)
  | .auipc rd i => some (i ++ rd ++ BitVec.ofNat 7 0x17)
  | .jal rd f => some (f.extractLsb' 19 1 ++ f.extractLsb' 0 10 ++ f.extractLsb' 10 1 ++ f.extractLsb' 11 8 ++ rd ++ BitVec.ofNat 7 0x6F)
  | .jalr rd rs1 i => some (encI i rs1 0 rd 0x67)
  | .branch op rs1 rs2 f => (rowOf rvBranchRows op).map (fun f3 => f.extractLsb' 11 1 ++ f.extractLsb' 4 6 ++ rs2 ++ rs1 ++
      BitVec.ofNat 3 f3 ++ f.extractLsb' 0 4 ++ f.extractLsb' 10 1 ++ BitVec.ofNat 7 0x63)
  | .load wd u rd rs1 i => (rvLoadRows.find? (fun r => r.1 == wd && r.2.1 == u)).map (fun r => encI i rs1 r.2.2 rd 0x03)
  | .store wd rs1 rs2 i => (rowOf rvStoreRows wd).map (fun f3 => i.extractLsb' 5 7 ++ rs2 ++ rs1 ++ BitVec.ofNat 3 f3 ++
      i.extractLsb' 0 5 ++ BitVec.ofNat 7 0x23)
  | .alu op rd rs1 rs2 => (rowOf rvAluRows op).map (fun r => encR r.2.1 rs2 rs1 r.2.2 rd r.1)
  | .imm op rd rs1 i => (rowOf rvImmRows op).map (fun r => encI i rs1 r.2 rd r.1)
  | .shift op rd rs1 sh => (rowOf rvShiftRows op).map (fun r => encI (BitVec.ofNat 6 r.2.1 ++ sh) rs1 r.2.2.1 rd r.1)
  | .unary op rd rs1 => (rowOf rvUnaryRows op).map (fun r => encI (BitVec.ofNat 12 r.2.1) rs1 r.2.2 rd r.1)
  | .lr dbl ar rd rs1 => some (2#5 ++ ar ++ 0#5 ++ rs1 ++ (if dbl then 3#3 else 2#3) ++ rd ++ BitVec.ofNat 7 0x2F)
  | .sc dbl ar rd rs1 rs2 => some (3#5 ++ ar ++ rs2 ++ rs1 ++ (if dbl then 3#3 else 2#3) ++ rd ++ BitVec.ofNat 7 0x2F)
  | .amo op dbl ar rd rs1 rs2 => (rowOf rvAmoRows op).map (fun f5 => BitVec.ofNat 5 f5 ++ ar ++ rs2 ++ rs1 ++
      (if dbl then 3#3 else 2#3) ++ rd ++ BitVec.ofNat 7 0x2F)
  | .csr op ui rd rs1 n => (rowOf rvCsrRows op).map (fun f3 => encI n rs1 (if ui then f3 + 4 else f3) rd 0x73)
  | .fence fm p sc rd rs1 => some (fm ++ p ++ sc ++ rs1 ++ 0#3 ++ rd ++ BitVec.ofNat 7 0x0F)
  | .wfi => some 0x10500073

/-- Whether a register is x8 to x15, which a compressed word names with three bits. -/
def rvcShort (r : XReg) : Bool := decide (8 ≤ r.toNat) && decide (r.toNat ≤ 15)
/-- The three bits of a register x8 to x15. -/
def rvc3 (r : XReg) : BitVec 3 := r.extractLsb' 0 3
/-- Whether a value is the sign extension of its low n bits. -/
def fitsS {m : Nat} (x : BitVec m) (n : Nat) : Bool := (x.setWidth n).signExtend m == x

/-- The compressed forms of ADDI: C.ADDI4SPN, C.ADDI16SP, C.ADDI, C.LI. -/
def encodeRvcAddi (rd rs1 : XReg) (i : BitVec 12) : Option (BitVec 16) :=
  if rd == rs1 && fitsS i 6 then
    some (0#3 ++ i.extractLsb' 5 1 ++ rd ++ i.extractLsb' 0 5 ++ 1#2)
  else if rs1 == 0 && fitsS i 6 then some (2#3 ++ i.extractLsb' 5 1 ++ rd ++ i.extractLsb' 0 5 ++ 1#2)
  else if rd == 2 && rs1 == 2 && fitsS i 10 && i.extractLsb' 0 4 == 0 && i != 0 then
    some (3#3 ++ i.extractLsb' 9 1 ++ 2#5 ++ i.extractLsb' 4 1 ++ i.extractLsb' 6 1 ++ i.extractLsb' 7 2 ++ i.extractLsb' 5 1 ++ 1#2)
  else if rs1 == 2 && rvcShort rd && i.extractLsb' 10 2 == 0 && i.extractLsb' 0 2 == 0 && i != 0 then
    some (0#3 ++ i.extractLsb' 4 2 ++ i.extractLsb' 6 4 ++ i.extractLsb' 2 1 ++ i.extractLsb' 3 1 ++ rvc3 rd ++ 0#2)
  else none

/-- The compressed forms of the loads. -/
def encodeRvcLoad (wd : RvWidth) (rd rs1 : XReg) (i : BitVec 12) : Option (BitVec 16) :=
  match wd with
  | .w =>
    if rs1 == 2 && rd != 0 && i.extractLsb' 8 4 == 0 && i.extractLsb' 0 2 == 0 then
      some (2#3 ++ i.extractLsb' 5 1 ++ rd ++ i.extractLsb' 2 3 ++ i.extractLsb' 6 2 ++ 2#2)
    else if rvcShort rs1 && rvcShort rd && i.extractLsb' 7 5 == 0 && i.extractLsb' 0 2 == 0 then
      some (2#3 ++ i.extractLsb' 3 3 ++ rvc3 rs1 ++ i.extractLsb' 2 1 ++ i.extractLsb' 6 1 ++ rvc3 rd ++ 0#2)
    else none
  | .d =>
    if rs1 == 2 && rd != 0 && i.extractLsb' 9 3 == 0 && i.extractLsb' 0 3 == 0 then
      some (3#3 ++ i.extractLsb' 5 1 ++ rd ++ i.extractLsb' 3 2 ++ i.extractLsb' 6 3 ++ 2#2)
    else if rvcShort rs1 && rvcShort rd && i.extractLsb' 8 4 == 0 && i.extractLsb' 0 3 == 0 then
      some (3#3 ++ i.extractLsb' 3 3 ++ rvc3 rs1 ++ i.extractLsb' 6 2 ++ rvc3 rd ++ 0#2)
    else none
  | _ => none

/-- The compressed forms of the stores. -/
def encodeRvcStore (wd : RvWidth) (rs1 rs2 : XReg) (i : BitVec 12) : Option (BitVec 16) :=
  match wd with
  | .w =>
    if rs1 == 2 && i.extractLsb' 8 4 == 0 && i.extractLsb' 0 2 == 0 then
      some (6#3 ++ i.extractLsb' 2 4 ++ i.extractLsb' 6 2 ++ rs2 ++ 2#2)
    else if rvcShort rs1 && rvcShort rs2 && i.extractLsb' 7 5 == 0 && i.extractLsb' 0 2 == 0 then
      some (6#3 ++ i.extractLsb' 3 3 ++ rvc3 rs1 ++ i.extractLsb' 2 1 ++ i.extractLsb' 6 1 ++ rvc3 rs2 ++ 0#2)
    else none
  | .d =>
    if rs1 == 2 && i.extractLsb' 9 3 == 0 && i.extractLsb' 0 3 == 0 then
      some (7#3 ++ i.extractLsb' 3 3 ++ i.extractLsb' 6 3 ++ rs2 ++ 2#2)
    else if rvcShort rs1 && rvcShort rs2 && i.extractLsb' 8 4 == 0 && i.extractLsb' 0 3 == 0 then
      some (7#3 ++ i.extractLsb' 3 3 ++ rvc3 rs1 ++ i.extractLsb' 6 2 ++ rvc3 rs2 ++ 0#2)
    else none
  | _ => none

/-- The two bits and the bit of the register arithmetic of quadrant 1. -/
def rvcAluCode (op : RvAlu) : Option (BitVec 1 × BitVec 2) :=
  match op with
  | .sub => some (0, 0) | .xor => some (0, 1) | .or => some (0, 2) | .and => some (0, 3)
  | .subw => some (1, 0) | .addw => some (1, 1) | _ => none

/-- The 16-bit word of a RISC-V operation, none where the C extension has none. -/
def encodeRvc (o : RvOp) : Option (BitVec 16) :=
  match o with
  | .imm .addi rd rs1 i => encodeRvcAddi rd rs1 i
  | .imm .addiw rd rs1 i =>
    if rd == rs1 && rd != 0 && fitsS i 6 then some (1#3 ++ i.extractLsb' 5 1 ++ rd ++ i.extractLsb' 0 5 ++ 1#2) else none
  | .imm .andi rd rs1 i =>
    if rd == rs1 && rvcShort rd && fitsS i 6 then
      some (4#3 ++ i.extractLsb' 5 1 ++ 2#2 ++ rvc3 rd ++ i.extractLsb' 0 5 ++ 1#2)
    else none
  | .lui rd i =>
    if rd != 2 && fitsS i 6 && i != 0 then some (3#3 ++ i.extractLsb' 5 1 ++ rd ++ i.extractLsb' 0 5 ++ 1#2) else none
  | .shift op rd rs1 sh =>
    if rd != rs1 then none
    else match op with
      | .slli => some (0#3 ++ sh.extractLsb' 5 1 ++ rd ++ sh.extractLsb' 0 5 ++ 2#2)
      | .srli => if rvcShort rd then some (4#3 ++ sh.extractLsb' 5 1 ++ 0#2 ++ rvc3 rd ++ sh.extractLsb' 0 5 ++ 1#2) else none
      | .srai => if rvcShort rd then some (4#3 ++ sh.extractLsb' 5 1 ++ 1#2 ++ rvc3 rd ++ sh.extractLsb' 0 5 ++ 1#2) else none
      | _ => none
  | .alu op rd rs1 rs2 =>
    match rvcAluCode op with
    | some (hi, lo) =>
      if rd == rs1 && rvcShort rd && rvcShort rs2 then
        some (4#3 ++ hi ++ 3#2 ++ rvc3 rd ++ lo ++ rvc3 rs2 ++ 1#2)
      else none
    | none =>
      if op == .add && rs2 != 0 then
        if rs1 == rd then some (4#3 ++ 1#1 ++ rd ++ rs2 ++ 2#2)
        else if rs1 == 0 then some (4#3 ++ 0#1 ++ rd ++ rs2 ++ 2#2)
        else none
      else none
  | .jal rd f =>
    if rd == 0 && fitsS f 11 then
      some (5#3 ++ f.extractLsb' 10 1 ++ f.extractLsb' 3 1 ++ f.extractLsb' 7 2 ++ f.extractLsb' 9 1 ++ f.extractLsb' 5 1 ++
        f.extractLsb' 6 1 ++ f.extractLsb' 0 3 ++ f.extractLsb' 4 1 ++ 1#2)
    else none
  | .jalr rd rs1 i =>
    if rs1 != 0 && i == 0 then
      if rd == 0 then some (4#3 ++ 0#1 ++ rs1 ++ 0#5 ++ 2#2)
      else if rd == 1 then some (4#3 ++ 1#1 ++ rs1 ++ 0#5 ++ 2#2)
      else none
    else none
  | .branch op rs1 rs2 f =>
    if rs2 == 0 && rvcShort rs1 && fitsS f 8 then
      let body := f.extractLsb' 7 1 ++ f.extractLsb' 2 2 ++ rvc3 rs1 ++ f.extractLsb' 5 2 ++ f.extractLsb' 0 2 ++ f.extractLsb' 4 1 ++ 1#2
      match op with
      | .beq => some (6#3 ++ body)
      | .bne => some (7#3 ++ body)
      | _ => none
    else none
  | .load wd u rd rs1 i => if u then none else encodeRvcLoad wd rd rs1 i
  | .store wd rs1 rs2 i => encodeRvcStore wd rs1 rs2 i
  | _ => none

/-- A word of Xqtl (R152). -/
def encX (f7 : Nat) (rs2 rs1 : XReg) (f3 : Nat) (rd : XReg) : Word := encR f7 rs2 rs1 f3 rd 0x0B

/-- The bytes' worth of a loader or storer instruction: its word and its length, none for any other. -/
def encodeRv (i : Instr) : Option (Word × Nat) :=
  match i with
  | .riscvInstruction o false => (encodeRvOp o).map (fun w => (w, 4))
  | .riscvInstruction o true => (encodeRvc o).map (fun h => (h.setWidth 32, 2))
  | .ecall => some (0x00000073, 4)
  | .tld rd rs1 => some (encX 0 0 rs1 0 rd, 4) | .tldt rd rs1 => some (encX 1 0 rs1 0 rd, 4)
  | .tlds rd rs1 => some (encX 2 0 rs1 0 rd, 4) | .tgath rd rs1 => some (encX 3 0 rs1 0 rd, 4)
  | .tst rd rs1 => some (encX 4 0 rs1 0 rd, 4) | .tcopy rd rs1 => some (encX 5 0 rs1 0 rd, 4)
  | .tbarArrive rd rs1 => some (encX 0 0 rs1 1 rd, 4) | .tbarExpect rd rs1 rs2 => some (encX 1 rs2 rs1 1 rd, 4)
  | .tbarWait rd rs1 rs2 => some (encX 2 rs2 rs1 1 rd, 4) | .tbarTest rd rs1 rs2 => some (encX 3 rs2 rs1 1 rd, 4)
  | .twait rd rs1 => some (encX 0 0 rs1 2 rd, 4) | .tfence => some (encX 1 0 0 2 0, 4)
  | .tstat rd rs1 => some (encX 0 0 rs1 3 rd, 4) | .tres rd rs1 => some (encX 1 0 rs1 3 rd, 4)
  | .tkill rd rs1 => some (encX 2 0 rs1 3 rd, 4)
  | _ => none

end Sys2Proof
end

