-- ==== Sys2Proof/WellFormed.lean ====
section
/-! DEFINITION. Which instructions are well formed: the operands are those that an encoding of the spec admits, and the
entities that an event names exist. -/

namespace Sys2Proof

/-- The checks of a RISC-V operation's fields: a 32-bit shift amount has five bits, a doubleword load no zero extension. -/
def rvWellFormed (o : RvOp) : Bool :=
  match o with
  | .shift op _ _ sh => !sh.getLsbD 5 || [RvShift.slli, .srli, .srai, .rori, .slliuw].contains op
  | .load wd u _ _ _ => !u || wd != .d
  | _ => true

/-- Well-formedness of an instruction (R271, R278, R152) or an event. -/
def Instr.wellFormed (i : Instr) : Bool :=
  match i with
  | .nop => true
  | .done => true
  | .tret => true
  | .yield => true
  | .fence scope kind => decide (scope.toNat ≤ 5) && decide (1 ≤ kind.toNat) && decide (kind.toNat ≤ 3)
  | .getr _ ix => decide (ix.toNat < 22)
  | .setr _ ix => decide (ix.toNat < 22)
  | .lwait => true
  | .add _ _ _ => true
  | .sub _ _ _ => true
  | .mul _ _ _ => true
  | .mulhI32 _ _ _ => true
  | .mulhN32 _ _ _ => true
  | .and _ _ _ => true
  | .or _ _ _ => true
  | .xor _ _ _ => true
  | .andn _ _ _ => true
  | .shl _ _ _ => true
  | .shr _ _ _ => true
  | .sra _ _ _ => true
  | .minI32 _ _ _ => true
  | .minN32 _ _ _ => true
  | .maxI32 _ _ _ => true
  | .maxN32 _ _ _ => true
  | .sltI32 _ _ _ => true
  | .sltN32 _ _ _ => true
  | .seq _ _ _ => true
  | .sel _ _ _ => true
  | .popc _ _ => true
  | .clz _ _ => true
  | .ctz _ _ => true
  | .bfe _ _ _ => true
  | .add64 d a b => d.even && a.even && b.even
  | .sub64 d a b => d.even && a.even && b.even
  | .addi _ _ _ => true
  | .andi _ _ _ => true
  | .ori _ _ _ => true
  | .xori _ _ _ => true
  | .shli _ _ _ => true
  | .shri _ _ _ => true
  | .srai _ _ _ => true
  | .slti _ _ _ => true
  | .seqi _ _ _ => true
  | .muli _ _ _ => true
  | .li _ _ => true
  | .lix _ _ => true
  | .addix _ _ _ => true
  | .adda d a _ => d.even && a.even
  | .ldB32 _ a _ => a.even
  | .ldB64 d a _ => d.even && a.even
  | .ldN8 _ a _ => a.even
  | .ldI8 _ a _ => a.even
  | .ldN16 _ a _ => a.even
  | .ldI16 _ a _ => a.even
  | .stB32 _ a _ => a.even
  | .stB64 d a _ => d.even && a.even
  | .stB8 _ a _ => a.even
  | .stB16 _ a _ => a.even
  | .atom d a b w64 code => atomLegal d a b w64 code
  | .ldsp d _ _ minor => ldspLegal d minor
  | .stsp d _ _ minor => stspLegal d minor
  | .ldo d a scope w64 kind => ldoLegal d a scope w64 kind
  | .sto d a scope w64 kind => stoLegal d a scope w64 kind
  | .br _ => true
  | .call _ => true
  | .ret => true
  | .jr _ => true
  | .beq _ _ _ => true
  | .bne _ _ _ => true
  | .bltI32 _ _ _ => true
  | .bgeI32 _ _ _ => true
  | .bltN32 _ _ _ => true
  | .bgeN32 _ _ _ => true
  | .bz _ _ => true
  | .bnz _ _ => true
  | .loop _ _ off => off != 0
  | .loopx _ => true
  | .btab d a list => btabLegal d a list
  | .trap _ _ => true
  | .lane _ _ _ => true
  | .spawn _ a _ scope => a.even && decide (scope.toNat ≤ 5)
  | .barInit _ _ _ => true
  | .barArrive _ _ scope => decide (1 ≤ scope.toNat) && decide (scope.toNat ≤ 5)
  | .barExpect _ _ _ => true
  | .barDrop _ _ scope => decide (1 ≤ scope.toNat) && decide (scope.toNat ≤ 5)
  | .barWait _ _ _ => true
  | .barTest _ _ _ => true
  | .safe n => n != 1023
  | .enter _ => true
  | .leave => true
  | .mma d a b _ => d.even && a.even && b.even
  | .mmas d a b _ => d.even && a.even && b.even
  | .mres d a b at3 _ => d.even && a.even && b.even && decide (at3.toNat ≤ 5)
  | .mcommit _ => true
  | .mwait _ => true
  | .mfence => true
  | .mresume => true
  | .mstat _ item => decide (item.toNat ≤ 3)
  | .vnop w => laneLegal 0x00 w
  | .vadd w => laneLegal 0x01 w
  | .vsub w => laneLegal 0x02 w
  | .vmul w => laneLegal 0x03 w
  | .vmulh w => laneLegal 0x04 w
  | .vmad w => laneLegal 0x05 w
  | .vand w => laneLegal 0x06 w
  | .vor w => laneLegal 0x07 w
  | .vxor w => laneLegal 0x08 w
  | .vandn w => laneLegal 0x09 w
  | .vshl w => laneLegal 0x0A w
  | .vshr w => laneLegal 0x0B w
  | .vsra w => laneLegal 0x0C w
  | .vmin w => laneLegal 0x0D w
  | .vmax w => laneLegal 0x0E w
  | .vabs w => laneLegal 0x0F w
  | .vneg w => laneLegal 0x10 w
  | .vcmp w => laneLegal 0x11 w
  | .vsel w => laneLegal 0x12 w
  | .vpopc w => laneLegal 0x13 w
  | .vclz w => laneLegal 0x14 w
  | .vctz w => laneLegal 0x15 w
  | .vbfe w => laneLegal 0x16 w
  | .vbfi w => laneLegal 0x17 w
  | .vaddsat w => laneLegal 0x18 w
  | .vsubsat w => laneLegal 0x19 w
  | .vdot4 w => laneLegal 0x1A w
  | .vbool w => laneLegal 0x1B w
  | .vfadd w => laneLegal 0x30 w
  | .vfsub w => laneLegal 0x31 w
  | .vfmul w => laneLegal 0x32 w
  | .vfma w => laneLegal 0x33 w
  | .vfmin w => laneLegal 0x34 w
  | .vfmax w => laneLegal 0x35 w
  | .vfcmp w => laneLegal 0x36 w
  | .vfclass w => laneLegal 0x37 w
  | .vrcp w => laneLegal 0x38 w
  | .vrsq w => laneLegal 0x39 w
  | .vsqrt w => laneLegal 0x3A w
  | .vexp2 w => laneLegal 0x3B w
  | .vlog2 w => laneLegal 0x3C w
  | .vcvt w => laneLegal 0x3D w
  | .vfrnd w => laneLegal 0x3E w
  | .vscale w => laneLegal 0x3F w
  | .vpack w => laneLegal 0x40 w
  | .vunpk w => laneLegal 0x41 w
  | .vmxq w => laneLegal 0x42 w
  | .vmxd w => laneLegal 0x43 w
  | .vshuf w => laneLegal 0x60 w
  | .vshufx w => laneLegal 0x61 w
  | .vshift w => laneLegal 0x62 w
  | .vbcast w => laneLegal 0x63 w
  | .vvote w => laneLegal 0x64 w
  | .vredx w => laneLegal 0x65 w
  | .vscan w => laneLegal 0x66 w
  | .vxs w => laneLegal 0x67 w
  | .vmatch w => laneLegal 0x68 w
  | .vld w => laneLegal 0x80 w
  | .vst w => laneLegal 0x81 w
  | .vatom w => laneLegal 0x82 w
  | .vred w => laneLegal 0x83 w
  | .vredo w => laneLegal 0x84 w
  | .vldf w => laneLegal 0x85 w
  | .vstf w => laneLegal 0x86 w
  | .vspawn w => laneLegal 0x87 w
  | .vldt w => laneLegal 0x88 w
  | .vldb w => laneLegal 0x89 w
  | .vstb w => laneLegal 0x8A w
  | .vpref w => laneLegal 0x8B w
  | .exportWrite _ => true
  | .loadReturn _ _ _ => true
  | .vldfAnswer _ _ => true
  | .cohortWake _ => true
  | .starvationLift _ _ => true
  | .riscvInstruction op short => if short then (encodeRvc op).isSome else rvWellFormed op
  | .ecall => true
  | .tld _ _ => true
  | .tldt _ _ => true
  | .tlds _ _ => true
  | .tgath _ _ => true
  | .tst _ _ => true
  | .tcopy _ _ => true
  | .tbarArrive _ _ => true
  | .tbarExpect _ _ _ => true
  | .tbarWait _ _ _ => true
  | .tbarTest _ _ _ => true
  | .twait _ _ => true
  | .tfence => true
  | .tstat _ _ => true
  | .tres _ _ => true
  | .tkill _ _ => true
  | .tileCommandStart _ _ slot => decide (slot < Config.tileSlots)
  | .tileRowComplete _ _ slot row _ => decide (slot < Config.tileSlots) && decide (row < 65536)
  | .tileCommandComplete _ _ slot => decide (slot < Config.tileSlots)
  | .tileCommandStop _ _ slot _ => decide (slot < Config.tileSlots)
  | .matrixStep core => decide (core < Config.coreCount)
  | .engineWaitGrant core _ => decide (core < Config.coreCount)
  | .matrixOpFinish core => decide (core < Config.coreCount)
  | .batchComplete _ => true
  | .pageWalk core t _ _ => decide (core < Config.coreCount) && decide (t < Config.tenantCount)
  | .faultRingPost t _ => decide (t < Config.tenantCount)
  | .txctlWrite t _ => decide (t < Config.tenantCount)
  | .txfrtWrite t _ => decide (t < Config.tenantCount)
  | .txfresAccept t _ => decide (t < Config.tenantCount)
  | .txfresReject t _ => decide (t < Config.tenantCount)
  | .txinvAll t => decide (t < Config.tenantCount)
  | .txinvRange t _ => decide (t < Config.tenantCount)
  | .txinvNone _ kind => kind == 2 || kind == 3
  | .invalidationComplete t => decide (t < Config.tenantCount)
  | .homeSliceWrite core _ => decide (core < Config.coreCount)
  | .sliceAtomic core _ => decide (core < Config.coreCount)
  | .reductionApply core _ => decide (core < Config.coreCount)
  | .futureRequest core _ => decide (core < Config.coreCount)
  | .vredoEntry core _ => decide (core < Config.coreCount)
  | .orderedFlush slice slot => decide (slice < Config.sliceCount) && decide (slot < Config.launchSlots)
  | .l1dLineExpiry core _ => decide (core < Config.coreCount)
  | .patrolScrub => true
  | .storageSweep => true
  | .errorDetect e => decide (1 ≤ e.place) && decide (e.place ≤ 9)
  | .errorRecordPost => true
  | .doorbell q _ => decide (q < Config.queueCount)
  | .queueEnable q _ => decide (q < Config.queueCount)
  | .queueDisable q _ => decide (q < Config.queueCount)
  | .queueRestart q _ => decide (q < Config.queueCount)
  | .qtokClear q _ => decide (q < Config.queueCount)
  | .qtoksSet q _ => decide (q < Config.queueCount)
  | .qirqcArm q _ => decide (q < Config.queueCount)
  | .packetFetch q => decide (q < Config.queueCount)
  | .packetRefetch q => decide (q < Config.queueCount)
  | .nopPacket q _ => decide (q < Config.queueCount)
  | .graph q _ => decide (q < Config.queueCount)
  | .graphCreate q _ => decide (q < Config.queueCount)
  | .copy q _ => decide (q < Config.queueCount)
  | .signal q _ => decide (q < Config.queueCount)
  | .wait q _ => decide (q < Config.queueCount)
  | .withdraw q _ => decide (q < Config.queueCount)
  | .vacate q _ => decide (q < Config.queueCount)
  | .vacateReturn q _ => decide (q < Config.queueCount)
  | .capstart q _ => decide (q < Config.queueCount)
  | .capstop q _ => decide (q < Config.queueCount)
  | .redflush q _ => decide (q < Config.queueCount)
  | .packetComplete q _ => decide (q < Config.queueCount)
  | .launchDestroy fn _ => decide (fn ≤ 32)
  | .recordArrival die _ => decide (die < 4)
  | .spawnerWake die _ => decide (die < 4)
  | .packTimerExpiry die _ => decide (die < 4)
  | .groupFormTimer die _ => decide (die < 4)
  | .launchCandidate die => decide (die < 4)
  | .recordPageSpill die => decide (die < 4)
  | .recordPageReadback die => decide (die < 4)
  | .gangWaitExpiry die _ => decide (die < 4)
  | .gangClosure die _ => decide (die < 4)
  | .groupEviction die _ => decide (die < 4)
  | .fDead slot => decide (slot < Config.launchSlots)
  | .launchComplete slot => decide (slot < Config.launchSlots)
  | .launchFaultEnd slot => decide (slot < Config.launchSlots)
  | .trapEntry _ => true
  | .groupSave _ => true
  | .groupResume die _ => decide (die < 4)
  | .traceSample core => decide (core < Config.coreCount)
  | .traceEnable t _ => decide (t < Config.tenantCount)
  | .dbgcmdRead t _ => decide (t < Config.tenantCount)
  | .dbgcmdWrite t _ => decide (t < Config.tenantCount)
  | .dbgcmdResume t _ => decide (t < Config.tenantCount)
  | .dbgcmdHalt t _ => decide (t < Config.tenantCount)
  | .dbgrClear t => decide (t < Config.tenantCount)
  | .moduleReset => true
  | .bringupStep => true
  | .attest _ => true
  | .attestComplete => true
  | .errorRingEnable _ => true
  | .watchdogExpiry fw => decide (fw < 6)
  | .coreQuarantine core => decide (core < Config.coreCount)
  | .linkRetrain port => decide (port < 36)
  | .clockThrottle _ => true
  | .powerLoss => true
  | .hostBar2Access _ _ _ => true
  | .systemAccessCompletion _ _ _ => true
  | .remoteAccessArrival a => decide (a.pkg < 1024)
  | .remoteTimeout core _ => decide (core < Config.coreCount)
  | .portFailure port => decide (port < 36)
  | .remoteCreditReturn pkg _ cause => decide (pkg < 1024) && decide (cause ≤ 7)
  | .pkgctlWrite _ => true
  | .tlbindWrite t _ => decide (t < Config.tenantCount)
  | .registerWrite fn _ size _ => decide (fn ≤ 32) && (size == 4 || size == 8)
  | .dieResetEnd die => decide (die < 4)
  | .linkRetrainEnd port => decide (port < 36)
  | .firmwareCoreSignal fw => decide (fw < 6)
  | .remoteWriteAcknowledgement core _ _ => decide (core < Config.coreCount)
  | .dbgcmdBadCommand t _ => decide (t < Config.tenantCount)
  | .powerMeasurement _ => true

end Sys2Proof
end

