-- ==== Sys2Proof/Machine/State.lean ====
section
/-! DEFINITION. The state of a Q7 module as plain data, the reasons that a step can stop, and the state after reset. -/

namespace Sys2Proof.Machine

/-- Why the machine stops. No instruction and no event of the spec stops the module: its own faults (R413) are steps that
have a next state. -/
inductive Fault where
  /-- Raised by the meaning of a scalar, lane, loader or storer instruction when `State.cur` names no such agent. `step`
  always names one, so no run meets it. Safe. -/
  | noAgent
  deriving DecidableEq, Repr

/-- Why an instruction has no meaning here. -/
inductive Refusal where
  /-- Raised by an arm of `exec` that has no meaning yet. Safe. -/
  | notModelled (mnemonic : String)
  deriving DecidableEq, Repr

/-! ## Identities -/

/-- The identity fields of a trace record (R440). -/
structure TraceWho where
  die  : Nat
  core : Nat
  cyc  : Nat
  spc  : Nat
  tag  : Nat × Nat × Nat := (0, 0, 0)
  node : Nat := 0
  lslot : Nat := 0
  cohix : Nat := 0
  gen  : Nat := 0
  widd : Nat := 0
  deriving DecidableEq, Repr

/-! ## Cohorts -/

/-- What a fault of a cohort records (R413, R414). -/
structure FaultInfo where
  code : Nat
  src  : Nat := 0
  xpc  : Word := 0
  xlw  : Nat := 0
  lo   : Word := 0
  hi   : Word := 0
  deriving DecidableEq, Repr

/-- The registers of the two loops (R283). -/
structure LoopRegs where
  ls0 : Word := 0
  le0 : Word := 0
  lc0 : Word := 0
  ls1 : Word := 0
  le1 : Word := 0
  lc1 : Word := 0
  deriving DecidableEq, Repr

/-- An entry of a safe-point table (R417). -/
structure SafeEntry where
  slive : BitVec 64 := 0
  vlive : BitVec 256 := 0
  stub  : Word := 0
  loops : BitVec 2 := 0
  /-- Extent words EXT0 to EXT(NEXT - 1). -/
  exts  : List Word := []
  deriving DecidableEq, Repr

/-- The anchor of a cohort (R416). -/
structure Anchor where
  ix    : Nat := 1023
  spc   : Word := 0
  entry : SafeEntry := {}
  loops : LoopRegs := {}
  mode  : Word := 0
  fpe   : Word := 0
  depth : Nat := 0
  ids   : List (BitVec 12) := []
  retDepth : Nat := 0
  ret   : List Word := []
  deriving DecidableEq, Repr

/-- A lane block in a lane queue (R169, R253). -/
structure LaneBlock where
  words  : List (BitVec 96)
  /-- The index of the next word to issue. -/
  next   : Nat := 0
  mask   : Word
  /-- The copies of s0 to s15. -/
  window : List Word
  mode   : Word
  fpe    : Word
  /-- SPC of the LANE. -/
  spc    : Word
  /-- The export writes that LANE marked and that have not issued: the word's index in the block, and the register (R170). -/
  marks  : List (Nat × Nat)
  /-- The address of its first word, from which words are fetched again once the lane instruction cache has lost them (R63, R170);
  none where they cannot change. -/
  va     : Option Nat := none
  deriving DecidableEq, Repr

/-- An issued export that has not written its register (R337, R341). -/
structure ExportReq where
  reg : Nat
  val : Word
  /-- Whether LANE has marked its register pending (R170). -/
  marked : Bool := true
  /-- The identity that was next to be drawn at its issue: what the cohort has sent with a lower one came before it (R342). -/
  seq : Nat := 0
  deriving DecidableEq, Repr

/-- How a load leaves the core, and so how it can end (R102, R454, R457). -/
inductive Path where
  | core | slice | system | remote
  deriving DecidableEq, Repr

/-- A result on its way to its registers (R178, R281). -/
structure Pending where
  tag    : Nat
  /-- Whether the destination is a scalar register. -/
  scalar : Bool
  regs   : List Nat
  /-- What will be written: scalar register, or vector register * 32 + lane. -/
  vals   : List (Nat × Word) := []
  /-- Operations at slices that have not been performed; of a VLDF, its request while it has not come to its slice. -/
  waits  : Nat := 0
  /-- F_DATA or F_WIN found at the return (R102, R457). -/
  bad    : Option FaultInfo := none
  path   : Path := .core
  /-- An atomic at home slices: an ATOM or a VATOM. -/
  rmw    : Bool := false
  /-- A VLDF request: the lanes that share it, D, W64 and the answer (status, value). -/
  future : Bool := false
  lanes  : List Nat := []
  dreg   : Nat := 0
  w64    : Bool := false
  answer : Option (Nat × Dword) := none
  spc    : Word := 0
  xlw    : Nat := 0
  va     : Dword := 0
  /-- A read that is an acquire: later accesses of the cohort wait for its return (R114, R369). -/
  acq    : Bool := false
  deriving DecidableEq, Repr

/-- Why a cohort is out of arbitration (R181, R424, R427). -/
inductive Park where
  | results
  | barrier (off : Nat) (phase : Word)
  | spawn
  | page (entries : List Nat)
  | batch (b : Word)
  | handler
  | saved
  deriving DecidableEq, Repr

/-- Who writes to a buffer beside the matrix engine (R56): the lanes of a cohort, or a command of the loader's (false) or storer's
queue, by its ticket. -/
inductive Writer where
  | lanes (c : Nat)
  | tile (st : Bool) (ticket : Nat)
  deriving DecidableEq, Repr

/-- Bytes of a 64-byte chunk as they were before a writer's writes that race with the matrix engine (R56). -/
structure OldBytes where
  writer : Writer
  space : Nat
  chunk : Nat
  /-- Offsets and old bytes. -/
  cells : List Host.Cell
  /-- The operation has read the chunk as it was before this write. -/
  decided : Bool := false
  deriving DecidableEq, Repr

/-- A matrix operation in the engine, or held by a cohort (R397, R400). -/
structure MatOp where
  c     : Nat
  /-- The major opcode: 0x50 MMA, 0x51 MMAS, 0x52 MRES. -/
  opc   : Nat
  /-- s[a], s[a+1], s[b], s[b+1], s[d], s[d+1] as read at issue. -/
  regs  : List Word
  ext   : Word
  ix    : Nat
  batch : Word
  mb    : Nat := 0
  nb    : Nat := 0
  g     : Nat := 0
  ent   : Nat := 0
  /-- IV, DZ, OF, UF, IX. -/
  flags : BitVec 5 := 0
  /-- The clk in which it has waited without running, since its issue or its last grant (R399). -/
  since : Nat := 0
  granted : Bool := false
  /-- Writes that race with its reads (R56). -/
  old   : List OldBytes := []
  /-- Chunks of ABUF and WBUF as the operation has read them: space, offset, bytes. -/
  seen  : List (Nat × Nat × List Byte) := []
  bad   : Option Nat := none
  deriving DecidableEq, Repr

/-- A record and the header fields of R198. -/
structure Rec where
  id    : Nat
  spkg  : Nat := 1023
  sslot : Nat := 0
  sgen  : BitVec 16 := 0
  slot  : Nat
  gen   : BitVec 16
  node  : Nat
  scope : Nat := 0
  depth : Nat := 0
  tag   : Word := 0
  handle : Dword := 0
  payload : List Byte
  /-- The clk at which it entered its queue. -/
  at_   : Nat := 0
  /-- The formed cohort or group that holds it, 0 for none. -/
  cand  : Nat := 0
  /-- Where the record comes from: 0 a spawner of this package, 1 an entry record, 2 another package. -/
  origin : Nat := 0
  /-- The cohort that spawned it, 0 for none (R201). -/
  from_ : Nat := 0
  /-- A gang record that has waited more than W clk (R176). -/
  late  : Bool := false
  /-- A resume record (R198). -/
  res   : Bool := false
  /-- The domain key that came with a record of another package (R452). -/
  key   : Option (BitVec 16) := none
  /-- Whether its sender waits for the credit that it took (R459). -/
  credit : Bool := false
  /-- A VSPAWN's: its word completes once it has entered (R381). -/
  hold  : Bool := false
  /-- Its place among the records that have waited for room in their queues, in the order in which they arrived; 0 for one that has not
  waited (R203). -/
  wait  : Nat := 0
  deriving DecidableEq, Repr

/-- A cohort (R165, R172). -/
structure Cohort where
  grp   : Nat
  ix    : Nat
  role  : Nat := 0
  nv    : Nat := 8
  sched : Nat := 0
  cslot : Nat := 0
  s     : SMap Word := []
  v     : SMap Word := []
  spc   : Word := 0
  /-- The code base, VA[59:32]. -/
  cb    : BitVec 28 := 0
  live  : Word := 0xFFFFFFFF
  mode  : Word := 0
  fpf   : Word := 0
  fpe   : Word := 0
  cause : Word := 0
  xpc   : Word := 0
  xlw   : Word := 0
  xaddrlo : Word := 0
  xaddrhi : Word := 0
  loops : LoopRegs := {}
  depth : Nat := 0
  /-- Region identifiers, top first, at most 8. -/
  ids   : List (BitVec 12) := []
  cycleh : Word := 0
  wid   : Dword := 0
  retDepth : Nat := 0
  /-- The on-core return entries, top first, at most 8. -/
  ret   : List Word := []
  priv  : Nat := 0
  laneQ : List LaneBlock := []
  exports : List ExportReq := []
  pend  : List Pending := []
  /-- The registers written by non-interlocked words of the open run. -/
  runW  : List Nat := []
  park  : Option Park := none
  /-- The clk of its last park (R189). -/
  parkAt : Nat := 0
  age   : Nat := 0
  waitS : Nat := 0
  waitL : Nat := 0
  liftS : Bool := false
  liftL : Bool := false
  gap   : Nat := 0
  /-- HGAP and THBASE as the trap entry read them (R423). -/
  hgap  : Nat := 0
  hbase : Dword := 0
  anchor : Anchor := {}
  /-- s48 to s63 at the trap. -/
  shadow : List Word := []
  handler : Bool := false
  /-- The clk of its last trap (R437). -/
  trapAt : Option Nat := none
  /-- A fault that waits for the lane queue to drain, or for its turn (R183, R424). -/
  fault : Option FaultInfo := none
  lcom  : Word := 0
  lcpl  : Word := 0
  /-- Operations of the open batch issued so far. -/
  openOps : Nat := 0
  /-- Flags of finished operations of batches that have not completed. -/
  bflags : List (Word × BitVec 5) := []
  /-- The pending batch fault: batch, code, index. -/
  frep  : Option (Word × Nat × Nat) := none
  /-- Locked CBUF regions: batch and region. -/
  locks : List (Word × Nat) := []
  heldOps : List MatOp := []
  /-- Tag and depth of each lane's record (R200). -/
  tags  : List (Word × Nat) := []
  /-- Records of a spawn that have not entered (R203, R381). -/
  outbox : List Rec := []
  /-- Records of its VSPAWN on their way to their queues: the word completes when the last has entered (R381). -/
  vout : Nat := 0
  halted : Bool := false
  ended : Bool := false
  /-- The return depth below which a rebuild stub has ended, while one runs. -/
  stub  : Option Nat := none
  /-- It has still to continue at its anchor: the push of R422 waits for a page. -/
  cont  : Bool := false
  /-- Scalar and vector registers with an uncorrectable error. -/
  badS  : List Nat := []
  badV  : List Nat := []
  deriving DecidableEq, Repr

/-! ## Groups, loaders and storers -/

/-- A wait of a tile command on a fault-ring entry: the row that needs the page, and the address (R30, R33, R157). -/
structure TileWait where
  id  : Nat
  row : Nat
  va  : Dword
  deriving DecidableEq, Repr

/-- A row, or band, of a landing command that has been issued and is not complete: its 16-byte chunks, by local offset (R57, R140,
R157). -/
structure OpenRow where
  row : Nat
  chunks : List (Nat × List Byte)
  deriving DecidableEq, Repr

/-- A tile command in a slot of a queue (R150, R156, R431). -/
structure TileCmd where
  desc   : BitVec 512
  ticket : Dword
  /-- 1 queued, 2 running, 3 stopped. -/
  st     : Nat := 1
  fcode  : Nat := 0
  flags  : BitVec 5 := 0
  /-- funct7 of the issuing instruction. -/
  kind   : Nat
  rowdone : Nat := 0
  /-- Complete rows above rowdone. -/
  doneRows : List Nat := []
  tqva   : Dword := 0
  /-- Indices that TGATH holds: row and index. -/
  held   : SMap Word := []
  hinc   : Nat := 0
  fwait  : Dword := 0
  /-- Bytes added to the barrier's expected bytes at issue and not yet counted. -/
  owed   : Nat := 0
  /-- The fault-ring entries that it waits on. -/
  waits  : List TileWait := []
  /-- Source rows that an overlapping TCOPY has read and not yet written (R161). -/
  srcs   : SMap (List Byte) := []
  /-- The widest scope that its global writes need: 3 .DEV, 4 .DOM, 5 .SYS (R127). -/
  wide   : Nat := 3
  /-- Whether it stopped at issue (R155). -/
  atIssue : Bool := false
  /-- The footprint of a TLDS that has been read and decomposed. -/
  out    : List Byte := []
  /-- The bitmap that a TLDS has read in this run (R408). -/
  bitmap : List Byte := []
  /-- A page that it waited on has been rejected: it stops at that row, with that address, once the rows before it are complete (R33,
  R157). -/
  rej    : Option (Nat × Dword) := none
  /-- The rows that have been issued and are not complete. -/
  early  : List OpenRow := []
  deriving DecidableEq, Repr

/-- What a loader or storer core is doing (R146 to R148, R431). -/
inductive RvMode where
  | running | ended | halted
  deriving DecidableEq, Repr

/-- A loader or storer core with its queue (R144 to R151). -/
structure RvCore where
  x     : SMap Dword := []
  pc    : Dword := 0
  imem  : List Host.Cell := []
  dram  : List Host.Cell := []
  /-- The clk from which `cycle` counts. -/
  cyc0  : Nat := 0
  instret : Dword := 0
  rowsel : Dword := 0
  tqtick : Dword := 1
  slots : List (Nat × TileCmd) := []
  mode  : RvMode := .ended
  hcode : Nat := 0
  hdlv  : Bool := false
  fnext : Dword := 0
  /-- The reservation of LR: address and width in bytes. -/
  lr    : Option (Nat × Nat) := none
  deriving DecidableEq, Repr

/-- A wait on a barrier object (R443). -/
structure BarWait where
  agent : Nat
  off   : Nat
  phase : Word
  at_   : Nat
  deriving DecidableEq, Repr

/-- A resident group (R165). -/
structure Group where
  slot  : Nat
  node  : Nat
  core  : Nat
  member : Nat := 0
  size  : Nat := 1
  gang  : Nat := 0
  /-- Cohorts of the group, ended ones included. -/
  nco   : Nat := 1
  sp    : List Host.Cell := []
  wb    : List Host.Cell := []
  ab    : List Host.Cell := []
  cb    : List Host.Cell := []
  /-- Records in the window, the tag of position 0 and the greatest depth (R200). -/
  recs  : Nat := 0
  winTag : Word := 0
  winDepth : Nat := 0
  loader : RvCore := {}
  storer : RvCore := {}
  /-- A save has been requested (R427). -/
  save  : Bool := false
  halt  : Option Nat := none
  waits : List BarWait := []
  /-- For each barrier object, the last clk with an operation at its port, and how late in R313's order that operation is. -/
  port  : List (Nat × Nat × Nat) := []
  /-- What lanes have written to the buffers without a fence since, and tile commands (R56, R128). -/
  racy  : List OldBytes := []
  /-- Doublewords with an uncorrectable error: space and offset. -/
  bad   : List (Nat × Nat) := []
  at_   : Nat := 0
  /-- The work identifier of its first record. -/
  wid   : Dword := 0
  /-- The waiting record or candidate for whose place it is evicted (R189). -/
  evict : Option Nat := none
  deriving DecidableEq, Repr

/-! ## Cores -/

/-- A cached translation (R34). -/
structure TlbEntry where
  t    : Nat
  va   : Nat
  /-- Page bits: 16, 27 or 38. -/
  sz   : Nat
  pa   : Nat
  pte  : Dword
  wr   : Bool
  deriving DecidableEq, Repr

/-- A cached pointer to a table (R34): tenant, level of the table, VA prefix, address. -/
structure TableEntry where
  t    : Nat
  lvl  : Nat
  va   : Nat
  tbl  : Nat
  deriving DecidableEq, Repr

/-- A line of the L1D (R59). -/
structure L1Line where
  t    : Nat
  va   : Nat
  pa   : Nat
  bytes : List Byte
  at_  : Nat
  deriving DecidableEq, Repr

/-- A line of an instruction cache (R63). -/
structure CodeLine where
  t    : Nat
  va   : Nat
  bytes : List Byte
  /-- The address of the line that holds it: in the lane cache each entry is one lane word of a 192-byte line. -/
  line : Nat := 0
  deriving DecidableEq, Repr

/-- An entry of the operand latch (R45). -/
structure LatchEntry where
  owner : Nat := 0
  reg   : Nat := 0
  uses  : Nat := 0
  vals  : List Word := []
  deriving DecidableEq, Repr

/-- A store on its way to its home slice (R111): one write request. -/
structure StoreReq where
  c    : Nat
  t    : Nat
  cells : List Host.Cell
  /-- A VSTF. -/
  fill : Bool := false
  mt   : Nat := 0
  /-- Its place among the requests that the core has issued. -/
  seq  : Nat := 0
  /-- Whether the lanes issued it, and not the scalar stream (R104). -/
  lane : Bool := false
  /-- The identity of the instruction, for the trace of a fill (R440, R442). -/
  who  : Option TraceWho := none
  deriving DecidableEq, Repr

/-- An atomic on its way to its home slice (R77). -/
structure AtomReq where
  c    : Nat
  tag  : Nat
  t    : Nat
  pa   : Nat
  va   : Dword
  code : Nat
  w64  : Bool
  a    : Dword
  b    : Dword
  /-- Where the old word goes: the low and, at 64 bits, the high key of `Pending.vals`. -/
  keys : List Nat
  seq  : Nat := 0
  deriving DecidableEq, Repr

/-- A combined reduction on its way (R79). -/
structure RedReq where
  c    : Nat
  t    : Nat
  pa   : Nat
  code : Nat
  w64  : Bool
  val  : Dword
  seq  : Nat := 0
  deriving DecidableEq, Repr

/-- A keyed addition (R87). -/
structure RedoEntry where
  c    : Nat
  slot : Nat
  pa   : Nat
  ty   : Nat
  key  : Word
  val  : Word
  deriving DecidableEq, Repr

/-- A future request on its way to, or held at, its home slice (R82, R83). -/
structure FutReq where
  c    : Nat
  tag  : Nat
  pa   : Nat
  w64  : Bool
  scope : Nat
  at_  : Nat
  /-- The package that made the request, none for this one (R457). -/
  pkg  : Option Nat := none
  seq  : Nat := 0
  /-- Whether another package holds it (R82, R133). -/
  away : Bool := false
  /-- The virtual address that was translated for it (R38). -/
  va   : Nat := 0
  deriving DecidableEq, Repr

/-- A scheduler's issue slot for one stream (R184, R185): the cohort slot that issued last, the clk of that issue, and the first clk in
which the slot is free again. -/
structure IssueSlot where
  last : Nat := 15
  at_  : Option Nat := none
  free : Nat := 0
  deriving DecidableEq, Repr

/-- A compute core (R39). -/
structure Core where
  tlb   : List TlbEntry := []
  l1d   : List L1Line := []
  sic   : List CodeLine := []
  lic   : List CodeLine := []
  /-- Scheduler * 3 + source position. -/
  latch : List (Nat × LatchEntry) := []
  /-- The store queues of the core's cohorts, each in issue order (R111). -/
  queue : List StoreReq := []
  /-- The store order of the core (R111). -/
  stores : List StoreReq := []
  atoms : List AtomReq := []
  reds  : List RedReq := []
  redos : List RedoEntry := []
  freqs : List FutReq := []
  /-- Requests issued so far. -/
  seq   : Nat := 0
  /-- Operations of the matrix engine, in issue order. -/
  engine : List MatOp := []
  /-- The position in `engine` of the operation whose block the engine works on. -/
  running : Option Nat := none
  /-- The tenant that alone may launch here after a VACATE, 255 for none. -/
  vacated : Option Nat := none
  /-- The gang record for which the core is closed (R177). -/
  closed : Option Nat := none
  /-- Uncorrectable errors since reset (R466). -/
  errs  : Nat := 0
  /-- Of each tenant, the cohort slot that was sampled last, and the clk after the one of that sample (R442); unlisted: 31 and 0. -/
  sampled : SMap (Nat × Nat) := []
  /-- The issue slots: scheduler k's for scalar words at 2 k, for lane words at 2 k + 1. -/
  slots : SMap IssueSlot := []
  deriving DecidableEq, Repr

/-! ## Slices, dies, launches -/

/-- A line of the record-retention class, with the bytes that HBM4E holds for it (R95). -/
structure KeptLine where
  line : Nat
  old  : List Byte
  deriving DecidableEq, Repr

/-- A slice (R68). -/
structure Slice where
  held : List FutReq := []
  redo : List RedoEntry := []
  /-- 64-byte lines whose uncorrectable error is in the slice's own storage (R99, R101). -/
  bad  : List Nat := []
  /-- Record-page lines that it keeps, oldest first (R95). -/
  kept : List KeptLine := []
  deriving DecidableEq, Repr

/-- A page of a node queue (R204): records with their places in the page. -/
structure RecPage where
  id    : Nat
  slot  : Nat
  node  : Nat
  /-- Places taken so far. -/
  used  : Nat := 0
  recs  : List (Nat × Rec) := []
  /-- The arena page, when the page is spilled. -/
  arena : Option Nat := none
  deriving DecidableEq, Repr

/-- A formed cohort or group (R207, R208). -/
structure Cand where
  id    : Nat
  slot  : Nat
  node  : Nat
  /-- The home neighbourhood, when NEAR = 1. -/
  nb    : Option Nat
  at_   : Nat
  deriving DecidableEq, Repr

/-- A saved group (R428 to R435). -/
structure Saved where
  grp   : Group
  cohorts : List Cohort
  /-- Arena pages of its save area. -/
  pages : List Nat
  /-- The arena page of its resume page, none for a kept page of the record store (R205, R429). -/
  rpage : Option Nat := none
  deriving DecidableEq, Repr

/-- A resume record: the groups of one save (R205, R435). -/
structure Resume where
  slot  : Nat
  node  : Nat
  nb    : Option Nat
  at_   : Nat
  groups : List Saved
  /-- Its header (R198). -/
  hdr   : Rec
  /-- The waiting record or candidate for whose place the group was evicted (R189). -/
  evict : Option Nat := none
  deriving DecidableEq, Repr

/-- A gang closure (R177). -/
structure Closure where
  nb    : Nat
  recId : Nat
  cores : List Nat
  deriving DecidableEq, Repr

/-- A compute die. -/
structure Die where
  pages : List RecPage := []
  transit : List Rec := []
  /-- Cohorts parked on a spawn to this die, in parking order. -/
  parked : List Nat := []
  cands : List Cand := []
  resumes : List Resume := []
  closures : List Closure := []
  leaf  : List TlbEntry := []
  tables : List TableEntry := []
  traceSeq : Word := 0
  inReset : Bool := false
  /-- The clk since which a record of the die cannot be placed (R189). -/
  evictAt : Option Nat := none
  /-- The slot that R209 served last, and the clk of the die's last launch. -/
  served : Nat := 63
  launched : Option Nat := none
  /-- Pages are being spilled from 3,584 down to 3,328 (R204). -/
  spilling : Bool := false
  deriving DecidableEq, Repr

/-- The graph scheduler's copy of a node (R190, R194). -/
structure NodeCopy where
  desc  : BitVec 1024
  edges : List (BitVec 16)
  loader : List Byte
  storer : List Byte
  level : Nat := 0
  deriving DecidableEq, Repr

/-- A resident launch (R190). -/
structure Launch where
  t     : Nat
  desc  : BitVec 512
  nodes : List NodeCopy
  /-- The GRAPH packet: device queue and identity in its window. -/
  packet : Option (Nat × Nat) := none
  crec  : Dword := 0
  tag   : Word := 0
  /-- END and CAUSE of an ending launch, and the clk in which its end began. -/
  ending : Option (Nat × Nat) := none
  endAt : Nat := 0
  bcnt  : Dword := 0
  blost : Nat := 0
  redlost : Nat := 0
  wdr   : Nat := 0
  disc  : Nat := 0
  privUsed : List Nat := []
  arenaUsed : List Nat := []
  /-- F_REDFULL or F_DATA that the next flush reports. -/
  flushErr : Nat := 0
  /-- The clk since which R206 holds. -/
  deadSince : Option Nat := none
  /-- The flags of batches whose cohorts had ended (R391, R400). -/
  flags : BitVec 5 := 0
  deriving DecidableEq, Repr

/-! ## Tenants and queues -/

/-- An outstanding fault-ring entry (R30 to R32). -/
structure FaultEntry where
  id    : Nat
  va    : Nat
  seq   : Option Word := none
  kind  : Nat
  agent : Nat
  core  : Nat
  lvl   : Nat
  reason : Nat
  deriving DecidableEq, Repr

/-- An open counter capture (R447). -/
structure Capture where
  cid   : Nat
  sel   : List Nat
  out   : Dword
  at_   : Nat
  int   : Bool := false
  counts : List Nat
  deriving DecidableEq, Repr

/-- A halted group (R439, R444). -/
structure HaltSlot where
  grp   : Nat
  coh   : Nat
  bp    : Nat
  src   : Nat
  deriving DecidableEq, Repr

/-- A tenant's registers and context (R24 to R26, R423, R439, R452). -/
structure Tenant where
  txctl : Dword := 0
  txroot : Dword := 0
  txfrb : Dword := 0
  txfrh : Nat := 0
  txfrt : Nat := 0
  fseq  : Word := 0
  txinvn : Word := 0
  /-- The invalidation in progress: the value of TXINV. -/
  inv   : Option Dword := none
  invn  : Word := 0
  lost  : Bool := false
  txwb  : SMap Dword := []
  txwl  : SMap Dword := []
  thbase : Dword := 0
  thctl : Dword := 0
  vf    : Nat := 0
  tlroa : Dword := 0
  tlros : Word := 0
  tldkey : BitVec 16 := 0
  tlref : Word := 0
  /-- The reduction overflow area in force: base and entries (R88, R452). -/
  area  : Option (Nat × Nat) := none
  /-- Used places of the area, with the entries written there (R88). -/
  areaUsed : List (Nat × RedoEntry) := []
  dbgdata : Dword := 0
  dbgst : Nat := 0
  /-- A READ or WRITE that waits for a result on its way to the register that it names (R281, R446). -/
  dbgWait : Option Dword := none
  dbgfail : Nat := 0
  dbgmiss : Nat := 0
  /-- The launch slot of a HALT command in progress. -/
  haltCmd : Option Nat := none
  dbgbp : SMap Dword := []
  halts : List (Nat × HaltSlot) := []
  right : Bool := false
  trbase : Dword := 0
  trctl : Dword := 0
  trh   : Word := 0
  trt   : Word := 0
  trlost : Dword := 0
  caps  : List Capture := []
  faults : List FaultEntry := []
  deriving DecidableEq, Repr

/-- Where a packet of a window stands (R226, R228). -/
inductive PktState where
  | waiting
  | started
  /-- A GRAPH that has created its launch in this slot. -/
  | launched (slot : Nat)
  /-- A WAIT that runs since this clk. -/
  | waits (at_ : Nat)
  /-- A VACATE that waits for these cores. -/
  | vacating (cores : List Nat)
  /-- A REDFLUSH that waits for these slices. -/
  | flushing (slot : Nat) (slices : List Nat)
  /-- Its effect is done. -/
  | done
  deriving DecidableEq, Repr

/-- A packet in a queue's window. -/
structure WinPkt where
  /-- Its identity: a number may come again after the queue has been enabled anew (R219). -/
  id    : Nat
  num   : Nat
  bytes : List Byte
  state : PktState := .waiting
  /-- The physical pieces of a GRAPH's completion record, translated at its start (R232). -/
  crecAt : List (Nat × Nat) := []
  deriving DecidableEq, Repr

/-- A submission queue (R218). -/
structure Queue where
  qbase : Dword := 0
  fvec  : BitVec 12 := 0
  sz    : Nat := 0
  run   : Bool := false
  en    : Bool := false
  tail  : Word := 0
  head  : Word := 0
  tok   : Dword := 0
  tl    : Dword := 0
  irqt  : Dword := 0
  vec   : BitVec 12 := 0
  arm   : Bool := false
  cause : Nat := 0
  code  : Nat := 0
  pkt   : Word := 0
  window : List WinPkt := []
  /-- Failed reads of the packet being fetched, and the clk of the last one. -/
  tries : Nat := 0
  triedAt : Nat := 0
  /-- The packets below HEAD to fetch again after a stop (R225). -/
  again : List Nat := []
  /-- The packet number of the SIGNAL that last raised the timeline. -/
  signal : Word := 0xFFFFFFFF
  /-- Host writes of QTOK (false) and QTOKS (true) that a start of the same clk came before: they apply in the next clk (R227). -/
  late : List (Bool × Dword) := []
  deriving DecidableEq, Repr

/-! ## Links and Anvil -/

/-- The answer to an access of another package (R456, R457): 0 performed, 1 refused, 2 uncorrectable data, 3 a future request
that is not held. -/
structure LinkReply where
  pkg    : Nat
  status : Nat
  data   : List Byte := []
  deriving DecidableEq, Repr

/-- A request sent to another package (R452, R458): its key and the bytes that it writes, or how many it reads. -/
structure RemoteReq where
  pkg   : Nat
  key   : BitVec 16
  off   : Nat
  len   : Nat := 0
  bytes : List Host.Cell := []
  deriving DecidableEq, Repr

/-- A PCIe request of the module for system space (R454): the function whose requester ID it carries, its address, and the bytes
that it writes, or how many it reads. -/
structure HostReq where
  fn    : Nat
  addr  : Nat
  len   : Nat := 0
  cells : List Host.Cell := []
  deriving DecidableEq, Repr

/-- The link block (R451, R452, R456, R459). -/
structure Link where
  len   : Bool := false
  hbap  : Nat := 0
  pkgid : Nat := 1023
  portup : BitVec 36 := 0
  retrain : List (Nat × Nat) := []
  dommap : SMap Dword := []
  dwb   : SMap Dword := []
  dwl   : SMap Dword := []
  /-- Record credits in use for each package. -/
  credits : SMap Nat := []
  /-- Records handed to UALink: package and record. -/
  sent  : List (Nat × Rec) := []
  /-- Answers given to other packages, oldest first. -/
  replies : List LinkReply := []
  /-- What became of records of other packages, oldest first: the package, 0 for a record that has entered its queue or the cause of
  its bounce, and the record (R212, R459). -/
  returns : List (Nat × Nat × Rec) := []
  /-- Requests sent to other packages, oldest first. -/
  out   : List RemoteReq := []
  deriving DecidableEq, Repr

/-- An error record that waits to be posted (R464). -/
structure ErrorRec where
  place : Nat
  fatal : Bool
  die   : Nat
  tenant : Nat
  core  : Nat
  addr  : Nat
  deriving DecidableEq, Repr

/-- Anvil (R461 to R469). -/
structure Anvil where
  fail  : Nat := 0
  step  : Nat := 0
  ready : Bool := false
  st    : Nat := 0
  dst   : Nat := 0
  /-- The nonce of the report in progress. -/
  asked : List Dword := []
  nonce : SMap Dword := []
  errbase : Dword := 0
  errctl : Dword := 0
  errh  : Word := 0
  errt  : Word := 0
  errlost : Dword := 0
  errseq : Word := 0
  errs  : List ErrorRec := []
  uncorr : Nat := 0
  pwr   : Word := 0
  mhzDrop : Nat := 0
  quar  : List Nat := []
  flash : List (Nat × List Byte) := []
  keyHash : BitVec 512 := 0
  minVer : SMap Nat := []
  secret : List Byte := []
  measures : List (Nat × BitVec 512) := []
  versions : List (Nat × Nat) := []
  /-- Released firmware cores and the clk of their last signal. -/
  heard : List (Nat × Nat) := []
  deriving DecidableEq, Repr

/-! ## The module -/

/-- One move of one agent, or of the world outside (assumption 2). -/
inductive Move where
  /-- The scalar stream of a cohort. -/
  | scalar (c : Nat)
  /-- The lane stream of a cohort. -/
  | lane (c : Nat)
  /-- The loader (false) or storer (true) core of a group. -/
  | rv (g : Nat) (st : Bool)
  /-- A step of another agent. -/
  | event (i : Instr)
  /-- The host or another package writes its own memory. -/
  | world (pa : Nat) (bytes : List Byte)
  /-- Reads of a 64-byte line outside the module's own memory end with an error, or no longer (R454, R455). -/
  | portError (pa : Nat) (on : Bool)
  /-- The instruction caches and the L1D of a core give up their lines, and its translations. -/
  | evict (core : Nat)
  /-- The host writes 4 or 8 bytes of a function's BAR4: its MSI-X table (R450). -/
  | bar4 (fn off size : Nat) (v : Dword)
  /-- The boot flash and the fuses as made. -/
  | manufacture (flash : List (Nat × List Byte)) (keyHash : BitVec 512) (minVer : SMap Nat) (secret : List Byte)
  /-- The 48 V input returns. -/
  | powerOn
  /-- The oldest store of a cohort leaves its queue into the core's store order (R111). -/
  | storeOut (core c : Nat)
  /-- A slice evicts a line to HBM4E (R102). -/
  | lineOut (line : Nat)
  /-- One 16-byte chunk of a tile command's row lands before the row is complete (R57, R140). -/
  | chunk (g : Nat) (st : Bool) (slot row i : Nat)
  /-- One clk passes. -/
  | tick
  deriving DecidableEq, Repr

/-- The agent that executes. -/
inductive Agent where
  | none
  | cohort (c : Nat)
  | rv (g : Nat) (st : Bool)
  deriving DecidableEq, Repr

/-- An entry of a function's MSI-X table, as PCIe lays it out (R450, R453): message address, message data, vector control. Bit 0 of
the last masks the vector; it is 1 after reset, as PCIe has it (assumption 72). -/
structure MsixEntry where
  addr : Dword := 0
  data : Word := 0
  ctl  : Word := 1
  deriving DecidableEq, Repr

/-- The starts of the front end (R227). -/
structure Starts where
  /-- The clk of the last start, the queues that started a packet in it, and the queue that started last. -/
  at_    : Nat := 0
  queues : List Nat := []
  last   : Nat := 2111
  /-- The clk of the last host write of tokens that took effect (R227). -/
  host   : Option Nat := none
  deriving DecidableEq, Repr

/-- The state of the module. -/
structure State where
  powered : Bool
  mem     : List Host.Cell
  /-- 64-byte lines with an uncorrectable error. -/
  badLines : List Nat
  clk     : Nat
  agenda  : List Move
  cur     : Agent
  /-- Free values drawn so far. -/
  draw    : Nat
  /-- The next identity of a group, record, request or fault entry. -/
  fresh   : Nat
  msgs    : List (Nat × Nat)
  /-- The functions' MSI-X tables: vector v of function f is entry 2,048 f + v (R450). -/
  msix    : SMap MsixEntry
  msixPend : List (Nat × Nat)
  /-- Requests that have passed the host port, oldest first (R112, R454). -/
  sysOut  : List HostReq
  /-- The bytes of completed reads through BAR2, oldest first; none for a read that met an uncorrectable error (R450, R102). -/
  hostOut : List (Option (List Byte))
  tenants : List (Nat × Tenant)
  queues  : List (Nat × Queue)
  /-- The front end's starts (R227). -/
  starts  : Starts
  gens    : SMap (BitVec 16)
  launches : List (Nat × Launch)
  dies    : List (Nat × Die)
  cores   : List (Nat × Core)
  groups  : List (Nat × Group)
  cohorts : List (Nat × Cohort)
  slices  : List (Nat × Slice)
  link    : Link
  anvil   : Anvil
  deriving DecidableEq, Repr

/-- The module right after reset (R7, R461): nothing resident, every register at its reset value, no byte of memory listed. -/
def State.reset : State :=
  { powered := true, mem := [], badLines := [], clk := 0, agenda := [], cur := .none, draw := 0, fresh := 1,
    msgs := [], msix := [], msixPend := [], sysOut := [], hostOut := [], tenants := [], queues := [], starts := {}, gens := [], launches := [],
    dies := [], cores := [], groups := [], cohorts := [], slices := [], link := {}, anvil := {} }

end Sys2Proof.Machine
end

