-- ==== Sys2Proof/Machine/Tables.lean ====
section
/-! DEFINITION. Sparse tables, byte strings and numbers, and the functions of addresses that the spec names (R69, R73). -/

namespace Sys2Proof.Machine

/-! ## Tables -/

/-- The entry of a key. -/
def lookup {α : Type} : List (Nat × α) → Nat → Option α
  | [], _ => none
  | (k, v) :: r, x => if k = x then some v else lookup r x

/-- A table without a key. -/
def erase {α : Type} (m : List (Nat × α)) (k : Nat) : List (Nat × α) := m.filter (fun p => p.1 != k)

/-- A key and its entry put before the first larger key. -/
def insertKey {α : Type} : List (Nat × α) → Nat → α → List (Nat × α)
  | [], k, v => [(k, v)]
  | (j, w) :: r, k, v => if k < j then (k, v) :: (j, w) :: r else (j, w) :: insertKey r k v

/-- A table with a key's entry replaced. -/
def store {α : Type} (m : List (Nat × α)) (k : Nat) (v : α) : List (Nat × α) := insertKey (erase m k) k v

/-- What a key reads as in a table whose unlisted keys read as `d`. -/
def get {α : Type} (d : α) (m : List (Nat × α)) (k : Nat) : α := (lookup m k).getD d

/-- A table of that kind after a write, in canonical form. -/
def put {α : Type} [DecidableEq α] (d : α) (m : List (Nat × α)) (k : Nat) (v : α) : List (Nat × α) :=
  if v = d then erase m k else store m k v

/-- Whether the keys of a table rise strictly. -/
def rising {α : Type} : List (Nat × α) → Bool
  | [] => true
  | [_] => true
  | p :: q :: r => decide (p.1 < q.1) && rising (q :: r)

/-- Whether a table is in canonical form. -/
def canonical {α : Type} [DecidableEq α] (d : α) (m : List (Nat × α)) : Bool := rising m && m.all (fun p => decide (p.2 ≠ d))

/-- The canonical form of a table of bytes: addresses strictly rising, no entry equal to what an unlisted address reads as. -/
def Memory.wf (m : List Host.Cell) : Bool := canonical (0 : Byte) m

/-- The entry at a position, changed. -/
def updateAt {α : Type} (l : List α) (k : Nat) (f : α → α) : List α :=
  match l, k with
  | [], _ => []
  | a :: r, 0 => f a :: r
  | a :: r, k + 1 => a :: updateAt r k f

/-- The entry of a key of a list of pairs, changed. -/
def updateKey {α : Type} (m : List (Nat × α)) (k : Nat) (f : α → α) : List (Nat × α) :=
  m.map (fun p => if p.1 = k then (p.1, f p.2) else p)

/-! ## Bytes and numbers -/

/-- Bits [hi:lo] of a number (R10). -/
def bitsOf (x hi lo : Nat) : Nat := x / 2 ^ lo % 2 ^ (hi + 1 - lo)

/-- Bit k of a number. -/
def bitOf (x k : Nat) : Bool := x / 2 ^ k % 2 == 1

/-- The two's-complement value of the low w bits of a number (R10). -/
def sext (x w : Nat) : Int :=
  let y := x % 2 ^ w
  if bitOf y (w - 1) then (y : Int) - (2 ^ w : Nat) else y

/-- The low w bits of an integer. -/
def lowBits (x : Int) (w : Nat) : Nat := (x % ((2 ^ w : Nat) : Int)).toNat

/-- The number that a byte string holds, least significant byte first (R6). -/
def leNat : List Byte → Nat
  | [] => 0
  | b :: r => b.toNat + 256 * leNat r

/-- n bytes of a number, least significant first (R6). -/
def leBytes : Nat → Nat → List Byte
  | 0, _ => []
  | n + 1, x => BitVec.ofNat 8 x :: leBytes n (x / 256)

/-- The word at byte i of a byte string. -/
def wordAt (b : List Byte) (i : Nat) : Nat := leNat ((b.drop i).take 4)

/-- n bytes at an address of a table of bytes. -/
def bytesAt (m : List Host.Cell) (a : Nat) : Nat → List Byte
  | 0 => []
  | n + 1 => get 0 m a :: bytesAt m (a + 1) n

/-- A byte string as cells from an address on. -/
def cellsOf (a : Nat) : List Byte → List Host.Cell
  | [] => []
  | b :: r => (a, b) :: cellsOf (a + 1) r

/-- A table of bytes after cells are written, in list order. -/
def writeCells (m : List Host.Cell) (cs : List Host.Cell) : List Host.Cell := cs.foldl (fun m c => put 0 m c.1 c.2) m

/-- A number rounded up to a multiple. -/
def roundUp (x m : Nat) : Nat := (x + m - 1) / m * m

/-- The lanes 0 to 31. -/
def lanes32 : List Nat := List.range 32

/-- The lanes of a mask, ascending. -/
def maskLanes (m : Word) : List Nat := lanes32.filter (fun l => m.getLsbD l)

/-- A list without repeats, first occurrences kept. -/
def dedup {α : Type} [DecidableEq α] (l : List α) : List α :=
  (l.foldl (fun acc x => if acc.contains x then acc else x :: acc) []).reverse

/-- Insertion into a list sorted by a relation, after its equals. -/
def insertBy {α : Type} (le : α → α → Bool) (x : α) : List α → List α
  | [] => [x]
  | y :: r => if le y x then y :: insertBy le x r else x :: y :: r

/-- A stable sort. -/
def sortBy {α : Type} (le : α → α → Bool) (l : List α) : List α := l.foldl (fun acc x => insertBy le x acc) []

/-- The position of the first entry that a predicate holds of. -/
def indexOf? {α : Type} (p : α → Bool) (l : List α) : Option Nat :=
  match l with
  | [] => none
  | a :: r => if p a then some 0 else (indexOf? p r).map (· + 1)

/-- The lowest number below n that is not in a list. -/
def firstFree (used : List Nat) (n : Nat) : Option Nat := (List.range n).find? (fun k => !used.contains k)

/-- The lowest k numbers below n that are not in a list. -/
def freeNumbers (used : List Nat) (n k : Nat) : List Nat := ((List.range n).filter (fun j => !used.contains j)).take k

/-- One of the numbers below n that are not in a list; which one is a free value. -/
def pickFree (used : List Nat) (n : Nat) : Option Nat :=
  match firstFree used (min n (used.length + 1)) with
  | none => none
  | some k => some (if Config.freePick used n < n && !used.contains (Config.freePick used n) then Config.freePick used n else k)

/-- k such numbers, all different; fewer where there are not as many. -/
def pickMany (n : Nat) : Nat → List Nat → List Nat
  | 0, _ => []
  | k + 1, used => match pickFree used n with
    | none => []
    | some p => p :: pickMany n k (p :: used)

/-! ## Placement -/

/-- mix of R69. -/
def mix (x : Nat) : Nat := x * 0x9E3779B1 % 2 ^ 32

/-- The home slice of a local address (R69). -/
def homeSlice (pa : Nat) : Nat := mix (bitsOf pa 39 8) * 320 / 2 ^ 32

/-- A place in HBM4E (R97): stack, channel, pseudo-channel and granule of the pseudo-channel's rows. -/
structure HbmPlace where
  stack : Nat
  channel : Nat
  pseudo : Nat
  granule : Nat
  deriving DecidableEq, Repr

/-- hbm_map of R97: where a local offset PA[39:0] lies. -/
def hbmMap (pa : Nat) : HbmPlace :=
  let g := bitsOf pa 39 8
  ⟨bitsOf g 3 0 ^^^ bitsOf g 15 12 ^^^ bitsOf g 27 24, bitsOf g 8 4 ^^^ bitsOf g 20 16, bitsOf g 9 9 ^^^ bitsOf g 21 21, bitsOf g 31 10⟩

/-- The granule of a place: the mapping turned round (R97 calls it a bijection). -/
def hbmGranule (h : HbmPlace) : Nat :=
  let lo := (h.stack ^^^ bitsOf h.granule 5 2 ^^^ bitsOf h.granule 17 14) + 16 * (h.channel ^^^ bitsOf h.granule 10 6) +
    512 * (h.pseudo ^^^ bitsOf h.granule 11 11)
  lo + 1024 * h.granule

/-- The compute die at whose edge a stack sits (R97). -/
def stackDie (st : Nat) : Nat := st / 4

/-- The home slice of a record (R73). -/
def placeSlice (wid mask : Dword) : Nat :=
  let x := (wid &&& mask).toNat
  mix ((x % 2 ^ 32) ^^^ (x / 2 ^ 32)) * 320 / 2 ^ 32

/-- The die of a slice (R69). -/
def sliceDie (sl : Nat) : Nat := sl / 80

/-- The neighbourhood of a slice within its die (R69). -/
def sliceNb (sl : Nat) : Nat := sl % 80 / 5

end Sys2Proof.Machine
end

