-- ==== Sys2Proof/Machine/Flags.lean ====
section
/-! DEFINITION. Floating-point values, the one rounding of each operation, and the flags it raises (R242 to R259). -/

namespace Sys2Proof.Machine

/-! ## Formats and values -/

/-- A float format (R242): exponent bits, fraction bits, bias, and whether it has infinities and NaNs (R243). -/
structure Fmt where
  eb   : Nat
  mb   : Nat
  bias : Nat
  hasInf : Bool
  hasNan : Bool
  deriving DecidableEq, Repr

def f32 : Fmt := ⟨8, 23, 127, true, true⟩
def f16 : Fmt := ⟨5, 10, 15, true, true⟩
def bf16 : Fmt := ⟨8, 7, 127, true, true⟩
def e5m2 : Fmt := ⟨5, 2, 15, true, true⟩
def e4m3 : Fmt := ⟨4, 3, 7, false, true⟩
def e3m2 : Fmt := ⟨3, 2, 3, false, false⟩
def e2m1 : Fmt := ⟨2, 1, 1, false, false⟩

/-- The bits of an element. -/
def Fmt.width (f : Fmt) : Nat := 1 + f.eb + f.mb
/-- The exponent of the lowest fraction bit of a subnormal. -/
def Fmt.qmin (f : Fmt) : Int := 1 - (f.bias : Int) - f.mb
/-- The encoding of the largest finite magnitude. -/
def Fmt.maxMag (f : Fmt) : Nat :=
  if f.hasInf then (2 ^ f.eb - 1) * 2 ^ f.mb - 1
  else if f.hasNan then 2 ^ (f.eb + f.mb) - 2
  else 2 ^ (f.eb + f.mb) - 1
/-- The sign bit. -/
def Fmt.signBit (f : Fmt) (neg : Bool) : Nat := if neg then 2 ^ (f.eb + f.mb) else 0
/-- The encoding of an infinity. -/
def Fmt.infBits (f : Fmt) (neg : Bool) : Nat := f.signBit neg + (2 ^ f.eb - 1) * 2 ^ f.mb
/-- The canonical NaN (R243); +0 in a format without NaNs (R248). -/
def Fmt.nanBits (f : Fmt) : Nat :=
  if f.hasInf then (2 ^ f.eb - 1) * 2 ^ f.mb + 2 ^ (f.mb - 1) else if f.hasNan then 2 ^ (f.eb + f.mb) - 1 else 0

/-- What an element stands for: a NaN, an infinity, or the number (-1)^neg * m * 2^e. -/
inductive FV where
  | nan (signalling : Bool)
  | inf (neg : Bool)
  | fin (neg : Bool) (m : Nat) (e : Int)
  deriving DecidableEq, Repr

/-- IV, DZ, OF, UF, IX (R251). -/
abbrev Sticky := BitVec 5
def flIV : Sticky := 16
def flDZ : Sticky := 8
def flOF : Sticky := 4
def flUF : Sticky := 2
def flIX : Sticky := 1

/-- The value of an element (R242, R243). -/
def unpackF (f : Fmt) (x : Nat) : FV :=
  let neg := bitOf x (f.eb + f.mb)
  let e := x / 2 ^ f.mb % 2 ^ f.eb
  let m := x % 2 ^ f.mb
  if f.hasInf && e == 2 ^ f.eb - 1 then
    if m == 0 then .inf neg else .nan (m < 2 ^ (f.mb - 1))
  else if f.hasNan && !f.hasInf && e == 2 ^ f.eb - 1 && m == 2 ^ f.mb - 1 then .nan false
  else if e == 0 then .fin neg m f.qmin
  else .fin neg (m + 2 ^ f.mb) (f.qmin + e - 1)

/-- The value of an operand, a subnormal read as a zero under FTZ (R250). -/
def unpackZ (f : Fmt) (ftz : Bool) (x : Nat) : FV :=
  if ftz && x / 2 ^ f.mb % 2 ^ f.eb == 0 then .fin (bitOf x (f.eb + f.mb)) 0 f.qmin else unpackF f x

/-- The exponent of the leading bit of m * 2^e. -/
def topExp (m : Nat) (e : Int) : Int := e + Nat.log2 m

/-! ## The one rounding -/

/-- The result of an overflow (R249). -/
def overflowBits (f : Fmt) (mode : Nat) (sat neg : Bool) : Nat :=
  let mx := f.signBit neg + f.maxMag
  if !f.hasInf || sat then mx
  else match mode with
    | 0 => f.infBits neg
    | 1 => mx
    | 2 => if neg then mx else f.infBits neg
    | _ => if neg then f.infBits neg else mx

/-- Whether a magnitude is rounded up: `rem` of 2^sh was cut off, `more` says that something below it was cut off too
(R246). -/
def roundsUp (mode : Nat) (neg odd : Bool) (rem sh : Nat) (more : Bool) : Bool :=
  let inexact := rem != 0 || more
  match mode with
  | 0 => let twice := 2 * rem
         decide (2 ^ sh < twice) || (twice == 2 ^ sh && sh != 0 && (more || odd))
  | 1 => false
  | 2 => inexact && !neg
  | _ => inexact && neg

/-- The number (-1)^neg * (m + a bit less than 1 when `more`) * 2^e rounded once (R246, R249, R250). -/
def roundTo (f : Fmt) (mode : Nat) (sat ftz neg : Bool) (m : Nat) (e : Int) (more : Bool) : Nat × Sticky :=
  if m == 0 && !more then (f.signBit neg, 0)
  else
    let top := topExp m e
    let tiny := decide (top < 1 - (f.bias : Int))
    let q := max (top - f.mb) f.qmin
    let sh := (q - e).toNat
    let r := if q ≤ e then m * 2 ^ (e - q).toNat else m / 2 ^ sh
    let rem := if q ≤ e then 0 else m % 2 ^ sh
    let inexact := rem != 0 || more
    let r := if roundsUp mode neg (r % 2 == 1) rem sh more then r + 1 else r
    -- the encoding of the rounded magnitude: exponent field and fraction run on into each other
    let mag := if r < 2 ^ f.mb then r else (q - f.qmin).toNat * 2 ^ f.mb + r
    let fl := if inexact then flIX else 0
    if tiny && ftz then (f.signBit neg, flUF ||| flIX)
    else if f.maxMag < mag then (overflowBits f mode sat neg, flOF ||| flIX)
    else (f.signBit neg + mag, if tiny && inexact then fl ||| flUF else fl)

/-- A value brought into a format (R248, R249). -/
def roundFV (f : Fmt) (mode : Nat) (sat ftz : Bool) (v : FV) : Nat × Sticky :=
  match v with
  | .nan s => (f.nanBits, if s || !f.hasNan then flIV else 0)
  | .inf n => if f.hasInf && !sat then (f.infBits n, 0) else (f.signBit n + f.maxMag, flOF ||| flIX)
  | .fin n m e => roundTo f mode sat ftz n m e false

/-- An invalid operation (R248). -/
def invalid (f : Fmt) : Nat × Sticky := (f.nanBits, flIV)

/-! ## Exact arithmetic -/

/-- A signed number scaled to an exponent not above its own. -/
def scaleTo (neg : Bool) (m : Nat) (e q : Int) : Int :=
  let x : Int := m * 2 ^ (e - q).toNat
  if neg then -x else x

/-- The sign of an exact zero sum (R247). -/
def zeroSign (mode : Nat) (n1 n2 : Bool) : Bool := if n1 == n2 then n1 else mode == 3

/-- A sum of two finite values, rounded once. -/
def addFin (f : Fmt) (mode : Nat) (sat ftz : Bool) (n1 : Bool) (m1 : Nat) (e1 : Int) (n2 : Bool) (m2 : Nat) (e2 : Int) :
    Nat × Sticky :=
  let q := min e1 e2
  let x := scaleTo n1 m1 e1 q + scaleTo n2 m2 e2 q
  if x == 0 then
    (f.signBit (if m1 == 0 && m2 == 0 then zeroSign mode n1 n2 else mode == 3), 0)
  else roundTo f mode sat ftz (decide (x < 0)) x.natAbs q false

/-- a + b of values (R346). -/
def addFV (f : Fmt) (mode : Nat) (ftz : Bool) (a b : FV) : Nat × Sticky :=
  match a, b with
  | .nan s, .nan s' => (f.nanBits, if s || s' then flIV else 0)
  | .nan s, _ => (f.nanBits, if s then flIV else 0)
  | _, .nan s => (f.nanBits, if s then flIV else 0)
  | .inf n, .inf n' => if n == n' then (f.infBits n, 0) else invalid f
  | .inf n, _ => (f.infBits n, 0)
  | _, .inf n => (f.infBits n, 0)
  | .fin n m e, .fin n' m' e' => addFin f mode false ftz n m e n' m' e'

/-- The value with the other sign. -/
def negFV (v : FV) : FV :=
  match v with
  | .nan s => .nan s
  | .inf n => .inf (!n)
  | .fin n m e => .fin (!n) m e

/-- a + b of elements. -/
def fadd (f : Fmt) (mode : Nat) (ftz : Bool) (a b : Nat) : Nat × Sticky :=
  addFV f mode ftz (unpackZ f ftz a) (unpackZ f ftz b)

/-- a - b of elements. -/
def fsub (f : Fmt) (mode : Nat) (ftz : Bool) (a b : Nat) : Nat × Sticky :=
  addFV f mode ftz (unpackZ f ftz a) (negFV (unpackZ f ftz b))

/-- The exact product of two values: none for 0 times an infinity. -/
def mulExact (a b : FV) : Option FV :=
  match a, b with
  | .nan s, .nan s' => some (.nan (s || s'))
  | .nan s, _ => some (.nan s)
  | _, .nan s => some (.nan s)
  | .inf n, .inf n' => some (.inf (n != n'))
  | .inf n, .fin n' m _ => if m == 0 then none else some (.inf (n != n'))
  | .fin n m _, .inf n' => if m == 0 then none else some (.inf (n != n'))
  | .fin n m e, .fin n' m' e' => some (.fin (n != n') (m * m') (e + e'))

/-- a * b of elements. -/
def fmul (f : Fmt) (mode : Nat) (ftz : Bool) (a b : Nat) : Nat × Sticky :=
  match mulExact (unpackZ f ftz a) (unpackZ f ftz b) with
  | none => invalid f
  | some v => roundFV f mode false ftz v

/-- a * b + c of elements with one rounding (R346). -/
def ffma (f : Fmt) (mode : Nat) (ftz : Bool) (a b c : Nat) : Nat × Sticky :=
  match mulExact (unpackZ f ftz a) (unpackZ f ftz b) with
  | none => invalid f
  | some p => addFV f mode ftz p (unpackZ f ftz c)

/-- Whether a value is below another, -0 below +0 (R347). Neither is a NaN. -/
def ltFV (a b : FV) : Bool :=
  match a, b with
  | .inf n, .inf n' => n && !n'
  | .inf n, _ => n
  | _, .inf n => !n
  | .fin n m e, .fin n' m' e' =>
    let q := min e e'
    let x := scaleTo n m e q
    let y := scaleTo n' m' e' q
    decide (x < y) || (x == y && m == 0 && n && !n')
  | _, _ => false

/-- Whether two values are equal, -0 = +0. -/
def eqFV (a b : FV) : Bool :=
  match a, b with
  | .inf n, .inf n' => n == n'
  | .fin n m e, .fin n' m' e' => let q := min e e'; scaleTo n m e q == scaleTo n' m' e' q
  | _, _ => false

def isNan (v : FV) : Bool := match v with | .nan _ => true | _ => false
def isSig (v : FV) : Bool := match v with | .nan s => s | _ => false

/-- An element, a subnormal as a zero under FTZ. -/
def flushBits (f : Fmt) (ftz : Bool) (x : Nat) : Nat :=
  if ftz && x / 2 ^ f.mb % 2 ^ f.eb == 0 then f.signBit (bitOf x (f.eb + f.mb)) else x

/-- The smaller (or larger) element (R347). -/
def fminmax (f : Fmt) (ftz larger : Bool) (a b : Nat) : Nat × Sticky :=
  let u := unpackZ f ftz a; let v := unpackZ f ftz b
  let fl := if isSig u || isSig v then flIV else 0
  let r :=
    if isNan u && isNan v then f.nanBits
    else if isNan u then flushBits f ftz b
    else if isNan v then flushBits f ftz a
    else if ltFV u v != larger then flushBits f ftz a else flushBits f ftz b
  (r, fl)

/-- A comparison by its COND code (R348). -/
def fcmp (f : Fmt) (ftz : Bool) (cond : Nat) (a b : Nat) : Bool × Sticky :=
  let u := unpackZ f ftz a; let v := unpackZ f ftz b
  let un := isNan u || isNan v
  let sig := isSig u || isSig v
  let lt := !un && ltFV u v && !eqFV u v
  let eq := eqFV u v
  let iv := sig || (un && decide (2 ≤ cond) && decide (cond ≤ 5))
  let r := match cond with
    | 0 => eq
    | 1 => !eq
    | 2 => lt
    | 3 => !un && !lt
    | 4 => lt || eq
    | 5 => !un && !lt && !eq
    | 6 => un
    | _ => !un
  (r, if iv then flIV else 0)

/-- The class mask of an element (R349). -/
def fclass (f : Fmt) (x : Nat) : Nat :=
  let sub := x / 2 ^ f.mb % 2 ^ f.eb == 0
  match unpackF f x with
  | .nan s => if s then 0x100 else 0x200
  | .inf n => if n then 0x001 else 0x080
  | .fin n m _ =>
    if m == 0 then (if n then 0x008 else 0x010)
    else if sub then (if n then 0x004 else 0x020)
    else (if n then 0x002 else 0x040)

/-! ## Elementary functions (R255) -/

/-- The integer square root of x, bit by bit from bit b - 1 down. -/
def isqrtBits (x : Nat) : Nat → Nat → Nat
  | 0, r => r
  | b + 1, r => if (r + 2 ^ b) * (r + 2 ^ b) ≤ x then isqrtBits x b (r + 2 ^ b) else isqrtBits x b r

/-- The integer square root. -/
def isqrt (x : Nat) : Nat := isqrtBits x (Nat.log2 x / 2 + 1) 0

/-- 1 / a. -/
def frcp (f : Fmt) (mode : Nat) (ftz : Bool) (a : Nat) : Nat × Sticky :=
  match unpackZ f ftz a with
  | .nan s => (f.nanBits, if s then flIV else 0)
  | .inf n => (f.signBit n, 0)
  | .fin n m e =>
    if m == 0 then (f.infBits n, flDZ)
    else
      let k := 2 * f.mb + 8
      let q := 2 ^ k / m
      roundTo f mode false ftz n q (-(k : Int) - e) (2 ^ k % m != 0)

/-- A finite value with an even exponent and at least 2w bits. -/
def evenScaled (m : Nat) (e : Int) (w : Nat) : Nat × Int :=
  let m := m * 4 ^ w
  let e := e - 2 * w
  if e % 2 == 0 then (m, e) else (2 * m, e - 1)

/-- The square root of a. -/
def fsqrt (f : Fmt) (mode : Nat) (ftz : Bool) (a : Nat) : Nat × Sticky :=
  match unpackZ f ftz a with
  | .nan s => (f.nanBits, if s then flIV else 0)
  | .inf n => if n then invalid f else (f.infBits false, 0)
  | .fin n m e =>
    if m == 0 then (f.signBit n, 0)
    else if n then invalid f
    else
      let (m, e) := evenScaled m e (f.mb + 3)
      let r := isqrt m
      roundTo f mode false ftz false r (e / 2) (r * r != m)

/-- 1 / the square root of a. -/
def frsq (f : Fmt) (mode : Nat) (ftz : Bool) (a : Nat) : Nat × Sticky :=
  match unpackZ f ftz a with
  | .nan s => (f.nanBits, if s then flIV else 0)
  | .inf n => if n then invalid f else (f.signBit false, 0)
  | .fin n m e =>
    if m == 0 then (f.infBits n, flDZ)
    else if n then invalid f
    else
      let (m, e) := evenScaled m e 0
      let k := 2 * f.mb + 8
      let r := isqrt (4 ^ k / m)
      roundTo f mode false ftz false r (-(k : Int) - e / 2) (r * r * m != 4 ^ k)

/-- ln 2 times 2^256, cut. -/
def ln2bits : Nat := 80260960185991308862233904206310070533990667611589946606122867505419956976171

/-- The terms of the series of e^z, z = x / 2^256 below 1, to 2^256 places; an error below 2^-240. -/
def expSeries (x : Nat) : Nat → Nat → Nat → Nat → Nat
  | 0, _, _, acc => acc
  | n + 1, k, term, acc =>
    let t := term * x / 2 ^ 256 / k
    expSeries x n (k + 1) t (acc + t)

/-- 2^a (log 15: the series is carried to 240 places). -/
def fexp2 (f : Fmt) (mode : Nat) (ftz : Bool) (a : Nat) : Nat × Sticky :=
  match unpackZ f ftz a with
  | .nan s => (f.nanBits, if s then flIV else 0)
  | .inf n => if n then (f.signBit false, 0) else (f.infBits false, 0)
  | .fin n m e =>
    if m == 0 then roundTo f mode false ftz false 1 0 false
    else if 20 < topExp m e then
      -- far outside the range of every format
      if n then roundTo f mode false ftz false 1 (-100000) true else roundTo f mode false ftz false 1 100000 true
    else
      -- a as an integer part and 200 fraction bits (every operand has at most 149 + 24 of them)
      let x := scaleTo n m e (-200)
      let ip := x / (2 ^ 200 : Nat)
      let fr := (x % ((2 ^ 200 : Nat) : Int)).toNat
      if fr == 0 then roundTo f mode false ftz false 1 ip false
      else
        let z := fr * ln2bits / 2 ^ 200
        roundTo f mode false ftz false (expSeries z 80 1 (2 ^ 256) (2 ^ 256)) (ip - 256) true

/-- The first k bits of the fraction of log2 (y / 2^512), y between 2^512 and 2^513. -/
def log2Bits : Nat → Nat → Nat → Nat
  | 0, _, acc => acc
  | k + 1, y, acc =>
    let y2 := y * y / 2 ^ 512
    if 2 ^ 513 ≤ y2 then log2Bits k (y2 / 2) (2 * acc + 1) else log2Bits k y2 (2 * acc)

/-- log2 a (log 15: the fraction is carried to 160 places). -/
def flog2 (f : Fmt) (mode : Nat) (ftz : Bool) (a : Nat) : Nat × Sticky :=
  match unpackZ f ftz a with
  | .nan s => (f.nanBits, if s then flIV else 0)
  | .inf n => if n then invalid f else (f.infBits false, 0)
  | .fin n m e =>
    if m == 0 then (f.infBits true, flDZ)
    else if n then invalid f
    else
      let t := topExp m e
      if m == 2 ^ Nat.log2 m then
        if t == 0 then (f.signBit false, 0) else roundTo f mode false ftz (decide (t < 0)) t.natAbs 0 false
      else
        let fr := log2Bits 160 (m * 2 ^ (512 - Nat.log2 m)) 0
        let x : Int := t * (2 ^ 160 : Nat) + fr
        if 0 ≤ x then roundTo f mode false ftz false x.natAbs (-160) true
        else roundTo f mode false ftz true (x.natAbs - 1) (-160) true

/-! ## Integers, scaling, conversion -/

/-- The magnitude m * 2^e rounded to an integer, and whether it changed. -/
def roundInt (mode : Nat) (neg : Bool) (m : Nat) (e : Int) : Nat × Bool :=
  if 0 ≤ e then (m * 2 ^ e.toNat, false)
  else
    let sh := (-e).toNat
    let r := m / 2 ^ sh
    let rem := m % 2 ^ sh
    (if roundsUp mode neg (r % 2 == 1) rem sh false then r + 1 else r, rem != 0)

/-- An element rounded to an integral value (R351). -/
def ffrnd (f : Fmt) (mode : Nat) (ftz : Bool) (a : Nat) : Nat × Sticky :=
  match unpackZ f ftz a with
  | .nan s => (f.nanBits, if s then flIV else 0)
  | .inf n => (f.infBits n, 0)
  | .fin n m e =>
    let (r, ch) := roundInt mode n m e
    ((roundTo f 1 false false n r 0 false).1, if ch then flIX else 0)

/-- a * 2^k rounded once (R352). -/
def fscale (f : Fmt) (mode : Nat) (ftz : Bool) (a : Nat) (k : Int) : Nat × Sticky :=
  match unpackZ f ftz a with
  | .nan s => (f.nanBits, if s then flIV else 0)
  | .inf n => (f.infBits n, 0)
  | .fin n m e => if m == 0 then (f.signBit n, 0) else
      roundTo f mode false ftz n m (max (min (e + k) 100000) (-100000)) false

/-- A value converted to an integer type of w bits (R241). -/
def toInt (w : Nat) (signed : Bool) (mode : Nat) (v : FV) : Nat × Sticky :=
  let hi : Int := if signed then 2 ^ (w - 1) - 1 else 2 ^ w - 1
  let lo : Int := if signed then -(2 ^ (w - 1)) else 0
  match v with
  | .nan _ => (0, flIV)
  | .inf n => (lowBits (if n then lo else hi) w, flIV)
  | .fin n m e =>
    if 200 < topExp m e && m != 0 then (lowBits (if n then lo else hi) w, flIV)
    else
      let (r, ch) := roundInt mode n m e
      let x : Int := if n then -(r : Int) else r
      if x < lo then (lowBits lo w, flIV)
      else if hi < x then (lowBits hi w, flIV)
      else (lowBits x w, if ch then flIX else 0)

/-- The value of an integer. -/
def intFV (x : Int) : FV := .fin (decide (x < 0)) x.natAbs 0

/-- sround of R256 for a nonzero finite magnitude. -/
def sroundFin (f : Fmt) (sat neg : Bool) (m : Nat) (e : Int) (rnd nb : Nat) : Nat × Sticky :=
  let top := topExp m e
  let tiny := decide (top < 1 - (f.bias : Int))
  let q := max (top - f.mb) f.qmin
  let r := if q ≤ e then m * 2 ^ (e - q).toNat else m / 2 ^ (q - e).toNat
  let rem := if q ≤ e then 0 else m % 2 ^ (q - e).toNat
  let frac := if q ≤ e then 0 else rem * 2 ^ nb / 2 ^ (q - e).toNat
  let r := if 2 ^ nb ≤ frac + rnd then r + 1 else r
  let mag := if r < 2 ^ f.mb then r else (q - f.qmin).toNat * 2 ^ f.mb + r
  let fl := if rem != 0 then (if tiny then flUF ||| flIX else flIX) else 0
  if f.maxMag < mag then (overflowBits f 0 sat neg, flOF ||| flIX) else (f.signBit neg + mag, fl)

/-- sround of R256. -/
def sround (f : Fmt) (sat : Bool) (v : FV) (rnd nb : Nat) : Nat × Sticky :=
  match v with
  | .fin n m e => if m == 0 then (f.signBit n, 0) else sroundFin f sat n m e rnd nb
  | _ => roundFV f 0 sat false v

/-! ## Exact sums (R259) -/

/-- A running exact sum: its special value, or a number at an exponent, and whether every term so far was -0. -/
structure ExactSum where
  nan  : Bool := false
  iv   : Bool := false
  inf  : Option Bool := none
  x    : Int := 0
  e    : Int := 0
  none_ : Bool := true
  /-- Every term is a zero with the minus sign. -/
  negZero : Bool := true
  deriving DecidableEq, Repr

/-- One more product in the sum. -/
def ExactSum.add (s : ExactSum) (v : Option FV) : ExactSum :=
  match v with
  | none => { s with nan := true, iv := true, none_ := false }
  | some (.nan _) => { s with nan := true, iv := true, none_ := false }
  | some (.inf n) =>
    match s.inf with
    | some n' => if n == n' then { s with none_ := false } else { s with nan := true, iv := true, none_ := false }
    | none => { s with inf := some n, none_ := false }
  | some (.fin n m e) =>
    let q := if s.none_ then e else min s.e e
    { s with x := s.x * 2 ^ (s.e - q).toNat + scaleTo n m e q, e := q, none_ := false,
             negZero := s.negZero && n && m == 0 }

/-- The sum as a value. -/
def ExactSum.value (s : ExactSum) : FV :=
  if s.nan then .nan true
  else match s.inf with
    | some n => .inf n
    | none => .fin (if s.x == 0 then s.negZero else decide (s.x < 0)) s.x.natAbs s.e

/-- acc + s with one RNE rounding (R259). -/
def accumulate (acc : Nat) (s : ExactSum) : Nat × Sticky := addFV f32 0 false (unpackF f32 acc) s.value

end Sys2Proof.Machine
end

