-- ==== Sys2Proof/Machine/Memory.lean ====
section
/-! DEFINITION. Memory: physical addresses, error lines, windows, walks, translation, futures that a write fills, and the
view that a core has of global memory (R14 to R38, R59 to R62, R82, R111, R503). -/

namespace Sys2Proof.Machine

/-! ## Entities -/

namespace State

def core (s : State) (k : Nat) : Core := get {} s.cores k
def die (s : State) (k : Nat) : Die := get {} s.dies k
def tenant (s : State) (k : Nat) : Tenant := get {} s.tenants k
def queue (s : State) (k : Nat) : Queue := get {} s.queues k
def slice (s : State) (k : Nat) : Slice := get {} s.slices k
def setCore (s : State) (k : Nat) (v : Core) : State := { s with cores := store s.cores k v }
def setDie (s : State) (k : Nat) (v : Die) : State := { s with dies := store s.dies k v }
def setTenant (s : State) (k : Nat) (v : Tenant) : State := { s with tenants := store s.tenants k v }
def setQueue (s : State) (k : Nat) (v : Queue) : State := { s with queues := store s.queues k v }
def setSlice (s : State) (k : Nat) (v : Slice) : State := { s with slices := store s.slices k v }
def setCohort (s : State) (k : Nat) (v : Cohort) : State := { s with cohorts := store s.cohorts k v }
def setGroup (s : State) (k : Nat) (v : Group) : State := { s with groups := store s.groups k v }
def setLaunch (s : State) (k : Nat) (v : Launch) : State := { s with launches := store s.launches k v }
def onCore (s : State) (k : Nat) (f : Core → Core) : State := s.setCore k (f (s.core k))
def onDie (s : State) (k : Nat) (f : Die → Die) : State := s.setDie k (f (s.die k))
def onTenant (s : State) (k : Nat) (f : Tenant → Tenant) : State := s.setTenant k (f (s.tenant k))
def onQueue (s : State) (k : Nat) (f : Queue → Queue) : State := s.setQueue k (f (s.queue k))
def onSlice (s : State) (k : Nat) (f : Slice → Slice) : State := s.setSlice k (f (s.slice k))
def onCohort (s : State) (k : Nat) (f : Cohort → Cohort) : State := { s with cohorts := updateKey s.cohorts k f }
def onGroup (s : State) (k : Nat) (f : Group → Group) : State := { s with groups := updateKey s.groups k f }
def onLaunch (s : State) (k : Nat) (f : Launch → Launch) : State := { s with launches := updateKey s.launches k f }
/-- The generation of a launch slot (R190). -/
def gen (s : State) (slot : Nat) : BitVec 16 := get 0 s.gens slot
/-- The next free value's number, and the state that has drawn it. -/
def drawn (s : State) : Nat × State := (s.draw, { s with draw := s.draw + 1 })

end State

/-! ## Physical memory -/

/-- An error record for Anvil (R40, R102, R464). -/
def addError (s : State) (e : ErrorRec) : State :=
  let s := if e.fatal && decide (5 ≤ e.place) && decide (e.core < Config.coreCount) then
      s.onCore e.core (fun C => { C with errs := C.errs + 1 }) else s
  { s with anvil := { s.anvil with errs := s.anvil.errs ++ [e],
                                   uncorr := if e.fatal then s.anvil.uncorr + 1 else s.anvil.uncorr } }

/-- The core number of what is done by no core (R464). -/
def noCore : Nat := 0xFFFF

/-- A physical address with this package's own number taken as local; the number 1,023 is no package's (R17). -/
def canonPa (s : State) (pa : Nat) : Nat :=
  if pa / 2 ^ 50 == 2 && bitsOf pa 49 40 == s.link.pkgid && s.link.pkgid != 1023 then pa % 2 ^ 40 else pa

/-- Where an address lies (R17). -/
inductive Place where
  | hbm | system | remote (pkg : Nat) | none
  deriving DecidableEq, Repr

/-- The target of a physical address (R17). -/
def placeOf (s : State) (pa : Nat) : Place :=
  match pa / 2 ^ 50 with
  | 0 => if bitsOf pa 49 40 == 0 then .hbm else .none
  | 1 => .system
  | 2 => let p := bitsOf pa 49 40
         if p == 1023 then .none else if p == s.link.pkgid then .hbm else .remote p
  | _ => .none

/-- An uncorrectable error found in memory (R102). -/
def memError (s : State) (core tenant pa : Nat) : State :=
  if placeOf s pa != .hbm then s
  else if (s.slice (homeSlice pa)).bad.contains (pa / 64) then addError s ⟨2, true, sliceDie (homeSlice pa), tenant, core, pa⟩
  else addError s ⟨1, true, 4, tenant, core, pa⟩

/-- Whether a range of bytes, aligned to its size, touches a range that R17 reserves. -/
def reservedPa (pa : Nat) : Bool :=
  match pa / 2 ^ 50 with
  | 0 => bitsOf pa 49 40 != 0
  | 1 => false
  | 2 => bitsOf pa 49 40 == 1023
  | _ => true

/-- One byte of memory. -/
def readByte (s : State) (pa : Nat) : Byte := get 0 s.mem pa

/-- n bytes of memory. -/
def readMem (s : State) (pa n : Nat) : List Byte := bytesAt s.mem pa n

/-- Whether requests wait for a port that is being retrained: none is up, and one has been retrained for at most 100 µs (R466). -/
def linkWaits (s : State) : Bool :=
  s.link.portup == 0 && s.link.retrain.any (fun p => decide (s.clk ≤ p.2 + Config.msClk / 10))

/-- A package cannot be reached (R455, R466). -/
def unreachable (s : State) (pkg : Nat) : Bool :=
  !s.link.len || s.link.pkgid == 1023 || !(get 0 s.link.dommap (pkg / 64)).getLsbD (pkg % 64) || (s.link.portup == 0 && !linkWaits s)

/-- Whether an access to an address cannot leave the device. -/
def cutOff (s : State) (pa : Nat) : Bool :=
  match placeOf s pa with
  | .remote p => unreachable s p
  | .none => true
  | _ => false

/-- Whether the target of an address answers: its die is not being reset, and no port to it is being retrained (R466). -/
def homeReady (s : State) (pa : Nat) : Bool :=
  match placeOf s pa with
  | .hbm => !(s.die (sliceDie (homeSlice pa))).inReset
  | .remote p => unreachable s p || !linkWaits s
  | _ => true

/-- Whether some accesses wait (R466). -/
def anyWait (s : State) : Bool := s.dies.any (·.2.inReset) || linkWaits s

/-- Whether an access of n bytes must wait for its target (R466). -/
def spanWaits (s : State) (pa n : Nat) : Bool :=
  anyWait s && (List.range ((pa % 64 + n + 63) / 64)).any (fun i => !homeReady s (pa / 64 * 64 + 64 * i))

/-- Whether a range touches a line that holds an uncorrectable error. -/
def rangeBad (s : State) (pa n : Nat) : Bool :=
  s.badLines.any (fun l => decide (l * 64 < pa + n) && decide (pa < l * 64 + 64))

/-- Whether cells hold every byte of a 64-byte line. -/
def coversLine (cs : List Host.Cell) (l : Nat) : Bool :=
  (List.range 64).all (fun i => cs.any (fun c => c.1 == l * 64 + i))

/-- Memory after one write request (R503): a request that may mend and holds all of a bad line mends it, any other leaves it bad
and is reported. -/
def applyCells (s : State) (core tenant : Nat) (cs : List Host.Cell) (mend : Bool := true) : State :=
  let ls := dedup (cs.map (fun c => c.1 / 64))
  let whole := fun l => ls.contains l && mend && coversLine cs l
  let partly := s.badLines.filter (fun l => ls.contains l && !whole l)
  let s := partly.foldl (fun s l => memError s core tenant (l * 64)) s
  { s with mem := writeCells s.mem cs, badLines := s.badLines.filter (fun l => !whole l) }

/-- A request of a tenant that leaves the module: the package's key goes with it, or the requester ID of the tenant's function
(R452, R454). It reads n bytes, or writes cells. -/
def leaves (s : State) (tenant pa n : Nat) (cs : List Host.Cell) : State :=
  match placeOf s pa with
  | .system => { s with sysOut := s.sysOut ++ [⟨(s.tenant tenant).vf, pa % 2 ^ 50, n, cs⟩] }
  | .remote p => { s with link := { s.link with out := s.link.out ++ [⟨p, (s.tenant tenant).tldkey, pa % 2 ^ 40, n, cs⟩] } }
  | _ => s

/-- An answer to another package (R456, R457). -/
def replyTo (s : State) (pkg status : Nat) (data : List Byte) : State :=
  { s with link := { s.link with replies := s.link.replies ++ [⟨pkg, status, data⟩] } }

/-- The answer to a future request reaches the cohort, or the package that asked (R82, R457). -/
def answerFuture (s : State) (q : FutReq) (status : Nat) (value : Dword) : State :=
  match q.pkg with
  | some p => replyTo s p (if status == 0 then 0 else 3) (if status == 0 then leBytes (if q.w64 then 8 else 4) value.toNat else [])
  | none => s.onCohort q.c (fun c => { c with pend := c.pend.map (fun p =>
    if p.tag = q.tag && p.future then { p with answer := some (status, value), waits := 0 } else p) })

/-- The state of a future cell (R81). -/
def cellState (s : State) (pa : Nat) : Nat := leNat (readMem s (pa + 8) 8)
/-- The value of a future cell. -/
def cellValue (s : State) (pa : Nat) : Dword := BitVec.ofNat 64 (leNat (readMem s pa 8))

/-- Whether a write touches a future cell. -/
def touchesCell (cs : List Host.Cell) (pa : Nat) : Bool := cs.any (fun c => decide (pa ≤ c.1) && decide (c.1 < pa + 16))

/-- The fault of a result whose data is bad (R102). -/
def badData (p : Pending) (va : Dword) : FaultInfo :=
  { code := 7, src := if p.scalar then 0 else 1, xpc := p.spc, xlw := p.xlw, lo := va.setWidth 32, hi := (va >>> 32).setWidth 32 }

/-- A future request that meets an uncorrectable error (R102): its cohort, or the package that asked, gets the error. -/
def failFuture (s : State) (q : FutReq) : State :=
  match q.pkg with
  | some p => replyTo s p 2 []
  | none => s.onCohort q.c (fun c => { c with pend := c.pend.map (fun p =>
    if p.tag = q.tag && p.future then { p with bad := some (badData p p.va), waits := 0 } else p) })

/-- The held requests whose cell a write has filled, or has left unreadable, in arrival order (R82, R102). -/
def filledBy (s : State) (cs : List Host.Cell) : List (Nat × FutReq) :=
  (dedup (cs.map (fun c => homeSlice c.1))).flatMap (fun k =>
    ((s.slice k).held.filter (fun q => touchesCell cs q.pa && (rangeBad s q.pa 16 || cellState s q.pa != 0))).map (fun q => (k, q)))

/-- Held requests answered after a write, and freed (R82); a request on a line that stays bad ends with F_DATA (R102, R503). -/
def wakeHeld (s : State) (cs : List Host.Cell) : State :=
  (filledBy s cs).foldl (fun s p =>
    let s := s.onSlice p.1 (fun sl => { sl with held := sl.held.filter (fun q => q ≠ p.2) })
    if rangeBad s p.2.pa 16 then failFuture s p.2 else answerFuture s p.2 0 (cellValue s p.2.pa)) s

/-- A write applied at its target: the home slice, the host port, or the other package (R70, R119, R454). -/
def targetWrite (s : State) (core tenant : Nat) (cs : List Host.Cell) (mend : Bool := true) : State :=
  match cs with
  | [] => s
  | c :: _ =>
    let s := applyCells s core tenant cs mend
    match placeOf s c.1 with
    | .hbm => wakeHeld s cs
    | _ => leaves s tenant c.1 0 cs

/-! ## Windows and walks -/

/-- Window n of a tenant, when it is in force: first byte, last byte, WR (R22, R26). -/
def windowOf (T : Tenant) (n : Nat) : Option (Nat × Nat × Bool) :=
  let b := (get 0 T.txwb n).toNat
  let l := (get 0 T.txwl n).toNat
  if bitOf b 0 then some (bitsOf b 51 16 * 65536, bitsOf l 51 16 * 65536 + 65535, bitOf b 1) else none

/-- The windows in force that cover a range of n bytes. -/
def windowsOver (T : Tenant) (a n : Nat) : List (Nat × Nat × Bool) :=
  ((List.range 16).filterMap (windowOf T)).filter (fun w => decide (w.1 ≤ a) && decide (a + n ≤ w.2.1 + 1))

/-- in_window_read of R20. -/
def inWindow (T : Tenant) (a n : Nat) : Bool := !(windowsOver T a n).isEmpty

/-- window_cover of R20: WR of the cover, none when no single window covers the range. -/
def windowCover (T : Tenant) (a n : Nat) : Option Bool :=
  match windowsOver T a n with
  | [] => none
  | ws => some (ws.any (·.2.2))

/-- One enabled window with WR covers a range. -/
def inWritableWindow (T : Tenant) (a n : Nat) : Bool := (windowsOver T a n).any (·.2.2)

/-- How a walk or a translation ends when it gives no page. -/
inductive XErr where
  /-- A cause code of R413. -/
  | trap (code : Nat)
  /-- F_PAGE: level and reason (R31). -/
  | page (lvl reason : Nat)
  /-- F_DATA on the table entry at this address. -/
  | data (pa : Nat)
  deriving DecidableEq, Repr

/-- Whether a leaf sets the permissions that an access kind needs (R21). -/
def allowed (pte : Nat) (k : AccessKind) : Bool :=
  match k with
  | .read => bitOf pte 2
  | .write => bitOf pte 3
  | .readWrite => bitOf pte 2 && bitOf pte 3
  | .fetch => bitOf pte 4

/-- A permission failure (R19, R20). -/
def denied (pte lvl : Nat) : XErr := if bitOf pte 7 then .page lvl 1 else .trap 4

/-- Whether a leaf entry of a level has a form that R19 and R20 refuse whatever the access: at PT3, with address bits below the
page size, with MT = 3, or in system space without MT = 2. -/
def leafBad (lvl pte : Nat) : Bool :=
  let base := bitsOf pte 51 14 * 16384
  let mt := bitsOf pte 9 8
  lvl == 3 || base % 2 ^ (16 + 11 * lvl) != 0 || mt == 3 || (bitsOf base 51 50 == 1 && mt != 2)

/-- The checks of a leaf (R20). -/
def walkLeaf (t : Nat) (T : Tenant) (va : Nat) (k : AccessKind) (lvl pte : Nat) : Except XErr TlbEntry :=
  let sh := 16 + 11 * lvl
  let base := bitsOf pte 51 14 * 16384
  if leafBad lvl pte then .error (.trap 4)
  else if !allowed pte k then .error (denied pte lvl)
  else if reservedPa base then .error (.trap 5)
  else match windowCover T base (2 ^ sh) with
    | none => .error (.trap 5)
    | some wr => .ok ⟨t, va / 2 ^ sh * 2 ^ sh, sh, base, BitVec.ofNat 64 pte, wr⟩

/-- The entry of a table of a level for an address, read and checked as every entry is (R20). An entry in an enabled window at a
reserved address, or of a package that cannot be reached, reads as the bytes at that address do (assumption 51). -/
def walkEntry (s : State) (t va lvl tbl : Nat) : Except XErr Nat :=
  let sh := 16 + 11 * lvl
  let raw := tbl + bitsOf va (sh + 10) sh * 8
  let ea := canonPa s raw
  if !inWindow (s.tenant t) raw 8 then .error (.trap 5)
  else if rangeBad s ea 8 then .error (.data ea)
  else
    let pte := leNat (readMem s ea 8)
    if !bitOf pte 0 then .error (.page lvl 0)
    else if bitsOf pte 55 52 != 0 || bitsOf pte 13 10 != 0 || bitsOf pte 6 5 != 0 then .error (.trap 4)
    else .ok pte

/-- The table that a non-leaf entry, or TXROOT, points to (R20). -/
def nextTable (pte : Nat) : Nat := bitsOf pte 51 14 * 16384

/-- One level of a walk: a page, or the next table (R20). -/
def walkLevel (s : State) (t va : Nat) (k : AccessKind) (lvl tbl : Nat) : Except XErr (TlbEntry ⊕ Nat) :=
  match walkEntry s t va lvl tbl with
  | .error x => .error x
  | .ok pte =>
    if bitOf pte 1 then (walkLeaf t (s.tenant t) va k lvl pte).map .inl
    else if lvl == 0 then .error (.trap 4)
    else .ok (.inr (nextTable pte))

/-- A walk from a table of a level down, and the table pointers that it follows (R20, R34). -/
def walkFrom (s : State) (t va : Nat) (k : AccessKind) : Nat → Nat → List TableEntry → Except XErr (TlbEntry × List TableEntry)
  | 0, tbl, acc =>
    match walkLevel s t va k 0 tbl with
    | .ok (.inl e) => .ok (e, acc)
    | .ok (.inr _) => .error (.trap 4)
    | .error x => .error x
  | lvl + 1, tbl, acc =>
    match walkLevel s t va k (lvl + 1) tbl with
    | .ok (.inl e) => .ok (e, acc)
    | .ok (.inr nxt) =>
      walkFrom s t va k lvl nxt (⟨t, lvl, va / 2 ^ (16 + 11 * (lvl + 1)) * 2 ^ (16 + 11 * (lvl + 1)), nxt⟩ :: acc)
    | .error x => .error x

/-- The cached table pointer of the lowest level for an address (R34). -/
def cachedTable (D : Die) (t va : Nat) : Option TableEntry :=
  [0, 1, 2].findSome? (fun lvl => D.tables.find? (fun e => e.t == t && e.lvl == lvl &&
    e.va == va / 2 ^ (16 + 11 * (lvl + 1)) * 2 ^ (16 + 11 * (lvl + 1))))

/-- A walk for an address (R20), from the lowest table that the die's cache holds (R34). -/
def walk (s : State) (die t va : Nat) (k : AccessKind) : Except XErr (TlbEntry × List TableEntry) :=
  match cachedTable (s.die die) t va with
  | some e => walkFrom s t va k e.lvl e.tbl []
  | none => walkFrom s t va k 3 (nextTable (s.tenant t).txroot.toNat) []

/-- The table entries that a walk from a table of a level down reads, whatever it finds in them (R20). -/
def entriesFrom (s : State) (t va : Nat) : Nat → Nat → List Nat
  | lvl, tbl =>
    let raw := tbl + bitsOf va (16 + 11 * lvl + 10) (16 + 11 * lvl) * 8
    if !inWindow (s.tenant t) raw 8 then []
    else canonPa s raw :: (match walkEntry s t va lvl tbl with
      | .error _ => []
      | .ok pte =>
        if bitOf pte 1 then []
        else match lvl with
          | 0 => []
          | l + 1 => entriesFrom s t va l (nextTable pte))

/-- The table entries that a walk for an address reads (R20, R34). -/
def entriesRead (s : State) (die t va : Nat) : List Nat :=
  if 2 ^ 60 ≤ va then []
  else match cachedTable (s.die die) t va with
    | some e => entriesFrom s t va e.lvl e.tbl
    | none => entriesFrom s t va 3 (nextTable (s.tenant t).txroot.toNat)

/-- The reads of a walk that leave the module (R20, R452, R454). -/
def walkAsks (s : State) (die t va : Nat) : State :=
  (entriesRead s die t va).foldl (fun s ea => if cutOff s ea then s else leaves s t ea 8 []) s

/-- Whether a cached translation serves an address. -/
def TlbEntry.hits (e : TlbEntry) (t va : Nat) : Bool := e.t == t && e.va == va / 2 ^ e.sz * 2 ^ e.sz

/-- The cached translation of an address: the core's buffer, then the die's cache (R34). -/
def cachedPage (s : State) (core t va : Nat) : Option TlbEntry :=
  match (s.core core).tlb.find? (fun e => e.hits t va) with
  | some e => some e
  | none => (s.die (core / 128)).leaf.find? (fun e => e.hits t va)

/-- The walk that an access of a core makes, where no cache holds the page: its reads that leave the module. -/
def walked (s : State) (core t va : Nat) : State :=
  if (cachedPage s core t va).isSome then s else walkAsks s (core / 128) t va

/-- Whether the walk that an access of a core needs must wait (R466). -/
def walkWaits (s : State) (core t va : Nat) : Bool :=
  anyWait s && (cachedPage s core t va).isNone && (entriesRead s (core / 128) t va).any (fun ea => spanWaits s ea 8)

/-- Whether an access kind writes. -/
def writes (k : AccessKind) : Bool := match k with | .write => true | .readWrite => true | _ => false

/-- A translated address. -/
structure Xlat where
  pa  : Nat
  mt  : Nat
  deriving DecidableEq, Repr

/-- The page that serves an access, with the checks of R21 and R23. -/
def usePage (s : State) (e : TlbEntry) (va : Nat) (k : AccessKind) : Except XErr Xlat :=
  if !allowed e.pte.toNat k then .error (denied e.pte.toNat ((e.sz - 16) / 11))
  else if writes k && !e.wr then .error (.trap 5)
  else .ok ⟨canonPa s (e.pa + va % 2 ^ e.sz), bitsOf e.pte.toNat 9 8⟩

/-- The translation of an address for an agent of a core (R14, R20 to R23, R34). -/
def translate (s : State) (core t va : Nat) (k : AccessKind) : Except XErr Xlat :=
  if 2 ^ 60 ≤ va then .error (.trap 2)
  else match cachedPage s core t va with
    | some e => usePage s e va k
    | none => match walk s (core / 128) t va k with
      | .ok (e, _) => usePage s e va k
      | .error x => .error x

/-- The leaf entry that tables lead an address to, whatever its permissions and windows: its level and the entry. None where the
walk ends before a leaf, or at one that no access may use (R20). -/
def leafFrom (s : State) (t va : Nat) : Nat → Nat → Option (Nat × Nat)
  | lvl, tbl =>
    match walkEntry s t va lvl tbl with
    | .error _ => none
    | .ok pte =>
      if bitOf pte 1 then (if leafBad lvl pte then none else some (lvl, pte))
      else match lvl with
        | 0 => none
        | l + 1 => leafFrom s t va l (nextTable pte)

/-- The address and memory type that an address's leaf gives, whatever the leaf permits (R29): from a cached translation, or
from the tables. -/
def leafXlat (s : State) (core t va : Nat) : Option Xlat :=
  let use := fun sh base pte => some (⟨canonPa s (base + va % 2 ^ sh), bitsOf pte 9 8⟩ : Xlat)
  match cachedPage s core t va with
  | some e => use e.sz e.pa e.pte.toNat
  | none =>
    let r := match cachedTable (s.die (core / 128)) t va with
      | some e => leafFrom s t va e.lvl e.tbl
      | none => leafFrom s t va 3 (nextTable (s.tenant t).txroot.toNat)
    match r with
    | some (lvl, pte) => use (16 + 11 * lvl) (nextTable pte) pte
    | none => none

/-- The number of an access kind in a fault-ring entry (R31). -/
def kindCode (k : AccessKind) : Nat := match k with | .read => 0 | .write => 1 | .readWrite => 2 | .fetch => 3

/-! ## Faults found before issue (R28, R29) -/

/-- A page that faults: VA of its 64 KiB page, kind, level, reason. -/
structure PageFault where
  va  : Nat
  kind : Nat
  lvl : Nat
  reason : Nat
  deriving DecidableEq, Repr

/-- A fault of an access before issue. -/
structure AccFault where
  code : Nat
  lo   : Word := 0
  hi   : Word := 0
  pages : List PageFault := []
  /-- The table entry of an F_DATA. -/
  pte  : Option Nat := none
  /-- The structure (R464) and place of an uncorrectable error in a local space. -/
  spot : Option (Nat × Nat) := none
  /-- The address whose translation failed. -/
  walk : Option Nat := none
  /-- AGENT of a fault-ring entry, where it is not the issuing stream's own: 1 for the fetch of lane words (R16, R31). -/
  agent : Option Nat := none
  deriving DecidableEq, Repr

/-- No fault: an access that must wait before it can be checked or made (R466). What makes it stalls. -/
def heldAccess : AccFault := { code := 0 }

/-- The order of the kinds (R29); what must wait comes first, as its outcome is not known. -/
def faultRank (code : Nat) : Nat :=
  match code with
  | 0 => 0 | 2 => 1 | 3 => 2 | 4 => 3 | 5 => 4 | 8 => 5 | 7 => 6 | 14 => 7 | _ => 8

/-- A fault with its 64-bit address. -/
def faultAt (code va : Nat) : AccFault := { code := code, lo := BitVec.ofNat 32 va, hi := BitVec.ofNat 32 (va / 2 ^ 32) }

/-- A failed translation as a fault of an access. -/
def xlatFault (va : Nat) (k : AccessKind) (x : XErr) : AccFault :=
  match x with
  | .trap c => { faultAt c va with walk := some va }
  | .page lvl r => { faultAt 6 va with pages := [⟨va / 65536 * 65536, kindCode k, lvl, r⟩] }
  | .data pa => { faultAt 7 va with pte := some pa, walk := some va }

/-- The fault that an instruction takes: the first kind in the order of R29, of the lowest lane; an F_PAGE names every page. -/
def pickFault (fs : List AccFault) : Option AccFault :=
  match fs with
  | [] => none
  | f :: r =>
    let best := r.foldl (fun a b => if faultRank b.code < faultRank a.code then b else a) f
    some (if best.code == 6 then { best with pages := dedup ((f :: r).flatMap (·.pages)) } else best)

/-- The translation of one page of an access of n bytes, or its fault; an access waits for what its walk reads and, where it reads
its bytes as it issues, for their target (R466). -/
def checkPage (s : State) (core t va n : Nat) (k : AccessKind) : Except AccFault Xlat :=
  if walkWaits s core t va then .error heldAccess
  else match translate s core t va k with
    | .error x => .error (xlatFault va k x)
    | .ok x => if !writes k && spanWaits s x.pa n then .error heldAccess else .ok x

/-- An access to virtual memory of n bytes, checked and translated (R14, R15, R27, R366). -/
def checkAccess (s : State) (core t va n : Nat) (align : Nat) (k : AccessKind) : Except AccFault Xlat :=
  if 2 ^ 60 ≤ va then .error (faultAt 2 va)
  else if va % align != 0 then .error (faultAt 3 va)
  else match checkPage s core t va n k with
    | .error f => .error f
    | .ok x =>
      -- an access that crosses into a second page (R27)
      if va % 65536 + n ≤ 65536 then .ok x
      else (checkPage s core t (va / 65536 * 65536 + 65536) 1 k).map (fun _ => x)

/-! ## The view of a core (R111) -/

/-- The last cell for an address in a request. -/
def lastCell (cs : List Host.Cell) (pa : Nat) : Option Byte :=
  cs.foldl (fun acc c => if c.1 = pa then some c.2 else acc) none

/-- The latest byte that requests write to an address. -/
def lastStored (rs : List StoreReq) (pa : Nat) : Option Byte :=
  rs.foldl (fun acc r => match lastCell r.cells pa with | some b => some b | none => acc) none

/-- A byte as the agents of a core see it: the latest store of the store order that is still on its way, else memory. -/
def coreByte (s : State) (C : Core) (pa : Nat) : Byte := (lastStored C.stores pa).getD (readByte s pa)

/-- n bytes as a core sees them. -/
def coreRead (s : State) (core pa n : Nat) : List Byte :=
  let C := s.core core
  (List.range n).map (fun i => coreByte s C (pa + i))

/-- The stores of a cohort that are still in its store queue. -/
def queuedBy (C : Core) (c : Nat) : List StoreReq := C.queue.filter (fun r => r.c == c)

/-- Bytes from an address on as a cohort sees them over what the core sees: its own queued stores count (R111). -/
def ownView (C : Core) (c pa : Nat) (b : List Byte) : List Byte :=
  let q := queuedBy C c
  if q.isEmpty then b else (List.range b.length).map (fun i => (lastStored q (pa + i)).getD (b.getD i 0))

/-- A byte as a cohort sees it (R111). -/
def cohortByte (s : State) (C : Core) (c pa : Nat) : Byte := (lastStored (queuedBy C c) pa).getD (coreByte s C pa)

/-- An L1D line's byte, if the L1D holds the line for a tenant's address. -/
def l1Line (C : Core) (t va : Nat) : Option L1Line := C.l1d.find? (fun l => l.t == t && l.va == va / 64 * 64)

/-- A cache after a new line: at most `cap` lines satisfy `same` (the lines that share its set); one that leaves for it is any of
them (R39: which one is a free value). -/
def install {α : Type} (cap : Nat) (same : α → Bool) (l : List α) (x : α) : List α :=
  let ks := (List.range l.length).filter (fun i => l[i]?.any same)
  if ks.length < cap then l ++ [x]
  else l.eraseIdx (ks.getD (Config.freePick ks ks.length % ks.length) 0) ++ [x]

/-- The set of the L1D that an address falls in (assumption 52). -/
def l1Set (va : Nat) : Nat := va / 64 % Config.l1dSets

/-- The L1D without the lines of an address. -/
def l1Drop (C : Core) (pa : Nat) : Core := { C with l1d := C.l1d.filter (fun l => l.pa != pa / 64 * 64) }

/-- The whole L1D discarded (R61). -/
def l1Discard (s : State) (core : Nat) : State := s.onCore core (fun C => { C with l1d := [] })

/-- A store updates the lines that the L1D holds (R60). -/
def l1Update (C : Core) (cs : List Host.Cell) : Core :=
  { C with l1d := C.l1d.map (fun l =>
      { l with bytes := (List.range 64).map (fun i =>
          match lastCell cs (l.pa + i) with | some b => b | none => l.bytes.getD i 0) }) }

/-- The path of an access, and its F_DATA where the target cannot be reached (R455, R457). -/
def pathOf (s : State) (pa : Nat) : Path :=
  match placeOf s pa with
  | .hbm => .slice
  | .system => .system
  | _ => .remote

/-! ## Counter captures -/

/-- n events of a code counted for a tenant (R447). -/
def countEvent (s : State) (t code n : Nat) : State :=
  if (s.tenant t).caps.isEmpty then s
  else s.onTenant t (fun T => { T with caps := T.caps.map (fun c =>
    { c with counts := (List.range 8).map (fun i => c.counts.getD i 0 + if c.sel.getD i 0 == code then n else 0) }) })

/-- The accesses at these addresses miss on the pages that the core's buffer does not hold: each is counted (R447, event 10), and
the reads of its walk go out, where no cache holds it (R34). -/
def countMisses (s : State) (core t : Nat) (vas : List Nat) : State :=
  let ps := (dedup (vas.map (· / 65536))).filter (fun p => !(s.core core).tlb.any (fun e => e.hits t (p * 65536)))
  ps.foldl (fun s p => walked s core t (p * 65536)) (countEvent s t 10 ps.length)

/-! ## Reads of a core -/

/-- A line filled into the L1D: 8 ways in each set (R39, R59). A line of the same bytes under another virtual address leaves: a later
read through that address must not find older bytes (R109, R118). -/
def l1Fill (C : Core) (l : L1Line) : Core :=
  { C with l1d := install Config.l1dWays (fun x => l1Set x.va == l1Set l.va) (C.l1d.filter (fun x => !(x.t == l.t && x.va == l.va) && x.pa != l.pa)) l }

/-- What a read of a cohort gives, and the state after it (R59, R102, R111): the bytes, or none at an uncorrectable error. `useL1`
says that the L1D may serve and hold the line; `count` that its events are not counted with those of a whole word. -/
def loadBytes (s : State) (core c t va : Nat) (x : Xlat) (n : Nat) (useL1 : Bool) (count : Bool := true) : State × Option (List Byte) :=
  let C := s.core core
  let s := if count then countMisses s core t [va] else s
  let one := if count then 1 else 0
  let off := va % 64
  if useL1 && x.mt == 0 && off + n ≤ 64 then
    match (l1Line C t va).filter (fun l => decide (s.clk - l.at_ ≤ Config.l1dClk)) with
    | some l => (countEvent s t 8 one, some (ownView C c x.pa ((List.range n).map (fun i => l.bytes.getD (off + i) 0))))
    | none =>
      let s := countEvent s t 9 one
      if rangeBad s x.pa n then (memError s core t x.pa, none)
      else if cutOff s x.pa then (s, none)
      else
        let s := leaves s t (x.pa - off) 64 []
        let line := coreRead s core (x.pa - off) 64
        (s.setCore core (l1Fill C ⟨t, va - off, x.pa - off, line, s.clk⟩),
          some (ownView C c x.pa ((List.range n).map (fun i => line.getD (off + i) 0))))
  else
    let s := s.onCore core (fun C => l1Drop C x.pa)
    if rangeBad s x.pa n then (memError s core t x.pa, none)
    else if cutOff s x.pa then (s, none)
    else (leaves s t x.pa n [], some (ownView C c x.pa (coreRead s core x.pa n)))

/-- The bytes of a line's cells grouped into one request per 64-byte line (R383). -/
def byLine (cs : List Host.Cell) : List (List Host.Cell) :=
  (dedup (cs.map (fun c => c.1 / 64))).map (fun l => cs.filter (fun c => c.1 / 64 == l))

end Sys2Proof.Machine
end

