-- ==== Sys2Proof/Machine/Reach.lean ====
section
/-! DEFINITION. What the front end and the graph schedulers do with virtual memory, MSI-X messages, counter captures and
trace records (R16, R131, R214, R225, R440 to R442, R447, R453). -/

namespace Sys2Proof.Machine

/-! ## Virtual memory without a core -/

/-- The translation of an address by the front end or a graph scheduler (R16, R225). The spec does not say which die's cache serves
them: the model's choice is die 0's, whichever die serves the queue (DESIGN CHOICE, assumption 36). -/
def frontXlat (s : State) (t va : Nat) (k : AccessKind) : Except XErr Xlat :=
  if 2 ^ 60 ≤ va then .error (.trap 2)
  else match (s.die 0).leaf.find? (fun e => e.hits t va) with
    | some e => usePage s e va k
    | none => match walk s 0 t va k with
      | .ok (e, _) => usePage s e va k
      | .error x => .error x

/-- The walk of a page that die 0's cache does not hold: its reads that leave the module. -/
def frontWalked (s : State) (t va : Nat) : State :=
  if (s.die 0).leaf.any (fun e => e.hits t va) then s else walkAsks s 0 t va

/-- Whether an access of the front end or of a graph scheduler to one page must wait: for a table entry that its walk reads, or, where
it reads, for its target (R466). -/
def frontPageWaits (s : State) (t va n : Nat) (k : AccessKind) : Bool :=
  anyWait s && ((!(s.die 0).leaf.any (fun e => e.hits t va) && (entriesRead s 0 t va).any (fun ea => spanWaits s ea 8)) ||
    (match frontXlat s t va k with | .ok x => !writes k && spanWaits s x.pa n | .error _ => false))

/-- The pieces of a virtual range, one for each 64 KiB page: address and length. -/
def pieces (va n : Nat) : List (Nat × Nat) :=
  ((List.range (n / 65536 + 2)).filterMap (fun i =>
    let lo := max va ((va / 65536 + i) * 65536)
    let hi := min (va + n) ((va / 65536 + i + 1) * 65536)
    if lo < hi then some (lo, hi - lo) else none))

/-- The physical pieces of a virtual range: every page is translated before any access (R225). Of several faults the lowest page's
counts, and a source is translated before its destination: the spec gives CAUSE no order (DESIGN CHOICE, assumption 36). -/
def xlatRange (s : State) (t va n : Nat) (k : AccessKind) : Except XErr (List (Nat × Nat)) :=
  (pieces va n).foldr (fun p acc =>
    match frontXlat s t p.1 k, acc with
    | .ok x, .ok r => .ok ((x.pa, p.2) :: r)
    | .error x, _ => .error x
    | _, .error x => .error x) (.ok [])

/-- Whether an access to a virtual range must wait (R466). -/
def frontWaits (s : State) (t va n : Nat) (k : AccessKind) : Bool :=
  anyWait s && (pieces va n).any (fun p => frontPageWaits s t p.1 p.2 k)

/-- The walks of a virtual range. -/
def frontWalks (s : State) (t va n : Nat) : State := (pieces va n).foldl (fun s p => frontWalked s t p.1) s

/-- What a read of a virtual range sends out of the module: the reads of its walks, and its own (R452, R454). -/
def frontAsk (s : State) (t va n : Nat) : State :=
  let s' := frontWalks s t va n
  match xlatRange s t va n .read with
  | .error _ => s'
  | .ok ps => ps.foldl (fun s p => if cutOff s p.1 then s else leaves s t p.1 p.2 []) s'

/-- A read of virtual memory by the front end or a graph scheduler. -/
def frontRead (s : State) (t va n : Nat) : Except XErr (List Byte) :=
  match xlatRange s t va n .read with
  | .error x => .error x
  | .ok ps =>
    match ps.find? (fun p => rangeBad s p.1 p.2 || cutOff s p.1) with
    | some p => .error (.data p.1)
    | none => .ok (ps.flatMap (fun p => readMem s p.1 p.2))

/-- The cells of bytes laid over physical pieces. -/
def layOver : List (Nat × Nat) → List Byte → List Host.Cell
  | [], _ => []
  | p :: r, b => cellsOf p.1 (b.take p.2) ++ layOver r (b.drop p.2)

/-- A write of virtual memory by the front end or a graph scheduler: all of it, or none at a fault (R214, R232). A COPY's requests may
mend a bad line, no other's (R503). -/
def frontWrite (s : State) (t va : Nat) (b : List Byte) (mend : Bool := false) : Except XErr State :=
  match xlatRange s t va b.length .write with
  | .error x => .error x
  | .ok ps =>
    match ps.find? (fun p => cutOff s p.1) with
    | some p => .error (.data p.1)
    | none => .ok ((byLine (layOver ps b)).foldl (fun s cs => targetWrite s noCore t cs mend) (frontWalks s t va b.length))

/-- A failed access that met an uncorrectable error, of a table entry or of its own bytes: it is reported (R20, R102). -/
def reportAccess (s : State) (t : Nat) (x : XErr) : State :=
  match x with
  | .data pa => if cutOff s pa then s else memError s noCore t pa
  | _ => s

/-- A failed access of the front end or of a graph scheduler: its walks have gone out, and its error is
reported. -/
def frontFailed (s : State) (t va n : Nat) (x : XErr) : State :=
  reportAccess (frontWalks s t va n) t x

/-- A write whose failure has no other effect than its report. -/
def frontPut (s : State) (t va : Nat) (b : List Byte) : State :=
  match frontWrite s t va b with | .ok s => s | .error x => frontFailed s t va b.length x

/-- The cause code of a failed access (R225). -/
def xerrCode (x : XErr) : Nat :=
  match x with
  | .trap c => c
  | .page _ _ => 6
  | .data _ => 7

/-! ## MSI-X messages -/

/-- A PCIe bus address as an address of system space. -/
def busPa (a : Nat) : Nat := if a < 2 ^ 50 then 2 ^ 50 + a else 2 ^ 52 + a

/-- Vectors of a function's MSI-X table (R450). -/
def msixSize (fn : Nat) : Nat := if fn == 0 then 2048 else 256
/-- The table entry of a function's vector. -/
def msixEntry (s : State) (fn vec : Nat) : MsixEntry := get {} s.msix (2048 * fn + vec)
/-- Whether a vector is masked (R453). -/
def vecMasked (s : State) (fn vec : Nat) : Bool := (msixEntry s fn vec).ctl.getLsbD 0

/-- A message goes out: a posted write of the entry's data to the entry's address, behind every earlier request (R131). -/
def postMessage (s : State) (fn vec : Nat) : State :=
  let e := msixEntry s fn vec
  { s with msgs := s.msgs ++ [(fn, vec)],
           sysOut := s.sysOut ++ [⟨fn, e.addr.toNat, 0, cellsOf (busPa e.addr.toNat) (leBytes 4 e.data.toNat)⟩] }

/-- An MSI-X message of a function (R453). -/
def sendMessage (s : State) (fn vec : Nat) : State :=
  if msixSize fn ≤ vec then s
  else if vecMasked s fn vec then
    { s with msixPend := if s.msixPend.contains (fn, vec) then s.msixPend else s.msixPend ++ [(fn, vec)] }
  else postMessage s fn vec

/-- A message of a tenant, through its bound function (R453). -/
def signalTenant (s : State) (t vec : Nat) : State := sendMessage s (s.tenant t).vf vec

/-- The tenant under whose translation a device queue runs (R217). -/
def queueTenant (q : Nat) : Nat := if q < 64 then 0 else q / 64 - 1

/-- A message of a queue: those of the physical function use its own table (R453). -/
def signalQueue (s : State) (q vec : Nat) : State :=
  if q < 64 then sendMessage s 0 vec else signalTenant s (queueTenant q) vec

/-! ## Cohort identity -/

/-- The slot of a cohort among the 32 of its core. -/
def coreSlot (c : Cohort) : Nat := c.sched * 16 + c.cslot

/-- The launch of a cohort's group: group, slot, launch. -/
def launchOf (s : State) (c : Cohort) : Option (Group × Launch) :=
  match lookup s.groups c.grp with
  | none => none
  | some g => (lookup s.launches g.slot).map (fun l => (g, l))

/-! ### Fields of the node and graph descriptors (R191, R194) -/

/-- Bits [hi:lo] of a descriptor as a number. -/
def dbits {n : Nat} (d : BitVec n) (hi lo : Nat) : Nat := (d.extractLsb' lo (hi + 1 - lo)).toNat

namespace NodeCopy
def w (n : NodeCopy) (k : Nat) : Nat := dbits n.desc (768 + 7 * k + 6) (768 + 7 * k)
def dsel (n : NodeCopy) : Nat := dbits n.desc 759 754
def hsel (n : NodeCopy) : Nat := dbits n.desc 753 748
def gf (n : NodeCopy) : Nat := dbits n.desc 747 745 + 1
def gp (n : NodeCopy) : Nat := dbits n.desc 744 742 + 1
def nsafe (n : NodeCopy) : Nat := dbits n.desc 741 732
def ecnt (n : NodeCopy) : Nat := dbits n.desc 731 726
def rwo (n : NodeCopy) : Nat := dbits n.desc 725 714
def gmax (n : NodeCopy) : Nat := dbits n.desc 713 704 + 1
def maxd (n : NodeCopy) : Nat := dbits n.desc 702 697
def self (n : NodeCopy) : Bool := n.desc.getLsbD 696
def ent (n : NodeCopy) : Bool := n.desc.getLsbD 695
def near (n : NodeCopy) : Bool := n.desc.getLsbD 694
def class_ (n : NodeCopy) : Nat := dbits n.desc 693 692
def rl1 (n : NodeCopy) : Bool := n.desc.getLsbD 691
def nc1 (n : NodeCopy) : Nat := dbits n.desc 690 686 + 1
def nc0 (n : NodeCopy) : Nat := dbits n.desc 685 681 + 1
def nv1 (n : NodeCopy) : Nat := (dbits n.desc 680 676 + 1) * 8
def nv0 (n : NodeCopy) : Nat := (dbits n.desc 675 671 + 1) * 8
def cbsz (n : NodeCopy) : Nat := dbits n.desc 670 664 * 4096
def absz (n : NodeCopy) : Nat := dbits n.desc 663 657 * 4096
def wbsz (n : NodeCopy) : Nat := dbits n.desc 656 649 * 4096
def spsz (n : NodeCopy) : Nat := dbits n.desc 648 640 * 1024
def kind (n : NodeCopy) : Nat := dbits n.desc 638 637
def rsize (n : NodeCopy) : Nat := (dbits n.desc 636 632 + 1) * 8
def hwm (n : NodeCopy) : Nat := dbits n.desc 631 612 + 1
def cap (n : NodeCopy) : Nat := dbits n.desc 611 592 + 1
def gwait (n : NodeCopy) : Nat := dbits n.desc 591 576
def tmr (n : NodeCopy) : Nat := dbits n.desc 575 560
def sgap (n : NodeCopy) : Nat := dbits n.desc 559 544
def stsz (n : NodeCopy) : Nat := dbits n.desc 543 528
def ldsz (n : NodeCopy) : Nat := dbits n.desc 527 512
def stsec (n : NodeCopy) : Nat := dbits n.desc 511 448
def ldsec (n : NodeCopy) : Nat := dbits n.desc 447 384
def edgesVa (n : NodeCopy) : Nat := dbits n.desc 383 320
def spt (n : NodeCopy) : Nat := dbits n.desc 319 256
def const (n : NodeCopy) : Nat := dbits n.desc 255 192
def lbase (n : NodeCopy) : Nat := dbits n.desc 191 128
def ep1 (n : NodeCopy) : Nat := dbits n.desc 127 64
def ep0 (n : NodeCopy) : Nat := dbits n.desc 63 0
/-- A node with a loader or storer section (R195). -/
def pipe (n : NodeCopy) : Bool := n.ldsz != 0 || n.stsz != 0
/-- The entry point of a role (R174). -/
def ep (n : NodeCopy) (role : Nat) : Nat := if role == 1 then n.ep1 else n.ep0
/-- The highest bit of work-identifier field k, plus 1 (R197). -/
def fieldTop (n : NodeCopy) (k : Nat) : Nat := 64 - ((List.range k).map n.w).foldl (· + ·) 0
/-- The mask of the fields that a selection names (R197). -/
def fieldMask (n : NodeCopy) (sel : Nat) : Dword :=
  (List.range 6).foldl (fun m k =>
    if bitOf sel k then m ||| BitVec.ofNat 64 ((2 ^ n.w k - 1) * 2 ^ (n.fieldTop k - n.w k)) else m) 0
/-- The allocation of a space: 0 scratchpad, 1 WBUF, 2 ABUF, 3 CBUF. -/
def alloc (n : NodeCopy) (space : Nat) : Nat :=
  match space with | 0 => n.spsz | 1 => n.wbsz | 2 => n.absz | _ => n.cbsz
end NodeCopy

namespace Launch
def pers (l : Launch) : Bool := l.desc.getLsbD 334
def bqn (l : Launch) : Nat := dbits l.desc 333 329
def npriv (l : Launch) : Nat := dbits l.desc 328 315 + 1
def plane (l : Launch) : Nat := dbits l.desc 314 300
def nnode (l : Launch) : Nat := dbits l.desc 299 288 + 1
def oapg (l : Launch) : Nat := dbits l.desc 287 256
def oabase (l : Launch) : Nat := dbits l.desc 231 192 * 4096
def bq (l : Launch) : Nat := dbits l.desc 191 128
def parena (l : Launch) : Nat := dbits l.desc 127 64
/-- The slot size of the private arena (R64). -/
def slotSize (l : Launch) : Nat := roundUp (2048 + 32 * l.plane) 4096
def node (l : Launch) (n : Nat) : NodeCopy := l.nodes.getD n ⟨0, [], [], [], 0⟩
end Launch

/-! ## Trace records -/

/-- The region tag of a cohort (R438): DEPTH, TOP, NEXT. -/
def regionTag (c : Cohort) : Nat × Nat × Nat :=
  let tagOf := fun o : Option (BitVec 12) => match o with | some i => 0x8000 + i.toNat | none => 0
  (c.depth, tagOf c.ids.head?, tagOf (c.ids.drop 1).head?)

/-- The identity of a cohort (R438, R440). -/
def whoIs (s : State) (c : Cohort) (spc : Word) : TraceWho :=
  match launchOf s c with
  | none => { die := 0, core := 0, cyc := 0, spc := spc.toNat }
  | some (g, l) =>
    let n := l.node g.node
    { die := g.core / 128, core := g.core % 128 + coreSlot c * 128, cyc := s.clk % 2 ^ 32, spc := spc.toNat,
      tag := regionTag c, node := g.node, lslot := g.slot, cohix := c.ix, gen := (s.gen g.slot).toNat,
      widd := (c.wid &&& n.fieldMask n.dsel).toNat }

/-- The bytes of a trace record (R440). -/
def traceBytes (kind : Nat) (w : TraceWho) (seq : Word) (data : Nat) : List Byte :=
  leBytes 1 kind ++ leBytes 1 w.die ++ leBytes 2 w.core ++ leBytes 4 seq.toNat ++ leBytes 4 w.cyc ++ leBytes 4 w.spc ++
  leBytes 2 w.tag.1 ++ leBytes 2 w.tag.2.1 ++ leBytes 2 w.tag.2.2 ++ leBytes 2 0 ++ leBytes 2 w.node ++ leBytes 1 w.lslot ++
  leBytes 1 w.cohix ++ leBytes 2 w.gen ++ leBytes 2 0 ++ leBytes 8 w.widd ++ leBytes 8 data

/-- The number of records of a tenant's trace ring (R439). -/
def traceSize (T : Tenant) : Nat := 2 ^ (bitsOf T.trctl.toNat 7 4 + 8)

/-- Whether a virtual ring lies in one window that has WR set (R440). -/
def ringInWindow (s : State) (t va n : Nat) : Bool :=
  match xlatRange s t va n .write with
  | .error _ => false
  | .ok ps => ((List.range 16).filterMap (windowOf (s.tenant t))).any (fun w =>
      w.2.2 && ps.all (fun p => decide (w.1 ≤ p.1) && decide (p.1 + p.2 ≤ w.2.1 + 1)))

/-- A trace record produced (R440, R441): written and TRH advanced, or dropped and counted. `bit` is its enable bit of TRCTL,
0 for the records that EN alone enables. -/
def traceRecord (s : State) (t kind bit : Nat) (w : TraceWho) (data : Nat) : State :=
  let T := s.tenant t
  if !T.trctl.getLsbD 0 || !T.trctl.getLsbD bit then s
  else
    let seq := (s.die w.die).traceSeq
    let s := s.onDie w.die (fun d => { d with traceSeq := d.traceSeq + 1 })
    let lose := fun s : State => s.onTenant t (fun T => { T with trlost := T.trlost + 1 })
    let size := traceSize T
    let base := bitsOf T.trbase.toNat 59 6 * 64
    if (T.trh + 1).toNat % size == T.trt.toNat % size then lose s
    else
      let va := base + 48 * (T.trh.toNat % size)
      match frontWrite s t va (traceBytes kind w seq data) with
      | .error x => lose (frontFailed s t va 48 x)
      | .ok s' => if !ringInWindow s t base (48 * size) then lose s else s'.onTenant t (fun T => { T with trh := T.trh + 1 })

end Sys2Proof.Machine
end

