-- ==== Sys2Proof/Machine/Slices.lean ====
section
/-! DEFINITION. What a home slice does with a request (R74 to R93, R119, R503), and what a core drains at a release. -/

namespace Sys2Proof.Machine

/-! ## The operations of R75 -/

/-- Each half of a word under a float addition (R75, R76). -/
def addHalves (f : Fmt) (a b : Nat) : Nat :=
  (fadd f 0 false (a % 65536) (b % 65536)).1 + 65536 * (fadd f 0 false (a / 65536 % 65536) (b / 65536 % 65536)).1

/-- The new word of an operation at a width of w bits (R75). -/
def atomicWord (code w old a b : Nat) : Nat :=
  let so := sext old w; let sa := sext a w
  match code with
  | 0 => (old + a) % 2 ^ w
  | 1 => old &&& a
  | 2 => old ||| a
  | 3 => old ^^^ a
  | 4 => if so ≤ sa then old else a
  | 5 => if so ≤ sa then a else old
  | 6 => min old a
  | 7 => max old a
  | 8 => a
  | 9 => if old == a then b else old
  | 10 => (fadd f32 0 false old a).1
  | 11 => addHalves f16 old a
  | 12 => addHalves bf16 old a
  | 13 => (fminmax f32 false false old a).1
  | _ => (fminmax f32 false true old a).1

/-! ## Requests performed at their slices -/

/-- A change of one pending result of a cohort. -/
def onPending (s : State) (c tag : Nat) (f : Pending → Pending) : State :=
  s.onCohort c (fun co => { co with pend := co.pend.map (fun p => if p.tag = tag then f p else p) })

/-- A refused or lost remote write is counted (R457). -/
def lostWrite (s : State) (t : Nat) : State :=
  s.onTenant t (fun T => { T with tlref := if T.tlref == 0xFFFFFFFF then T.tlref else T.tlref + 1 })

/-- An atomic performed (R60, R74, R77): the word changes, the L1D gives up its line, and the old word is on its way back. -/
def runAtom (s : State) (core : Nat) (q : AtomReq) : State :=
  let n := if q.w64 then 8 else 4
  let fail := fun s : State => onPending s q.c q.tag (fun p =>
    { p with waits := p.waits - 1, bad := match p.bad with | some f => some f | none => some (badData p q.va) })
  let s := s.onCore core (fun C => l1Drop C q.pa)
  if rangeBad s q.pa n then fail (memError s core q.t q.pa)
  else if cutOff s q.pa then fail s
  else
    let old := leNat (readMem s q.pa n)
    let new := atomicWord q.code (8 * n) old q.a.toNat q.b.toNat
    let s := targetWrite s core q.t (cellsOf q.pa (leBytes n new))
    let vals := (List.range q.keys.length).map (fun i => (q.keys.getD i 0, BitVec.ofNat 32 (old / 2 ^ (32 * i))))
    onPending s q.c q.tag (fun p => { p with waits := p.waits - 1, vals := p.vals ++ vals })

/-- A combined reduction performed (R78, R121). -/
def runRed (s : State) (core : Nat) (q : RedReq) : State :=
  let n := if q.w64 then 8 else 4
  let s := s.onCore core (fun C => l1Drop C q.pa)
  if rangeBad s q.pa n then memError s core q.t q.pa
  else if cutOff s q.pa then lostWrite s q.t
  else
    let old := leNat (readMem s q.pa n)
    targetWrite s core q.t (cellsOf q.pa (leBytes n (atomicWord q.code (8 * n) old q.val.toNat 0)))

/-- The 16 bytes of an overflow entry (R88). -/
def redoBytes (e : RedoEntry) : List Byte :=
  leBytes 16 (e.ty + (e.pa / 4) * 4 + e.slot * 2 ^ 52 + e.key.toNat * 2 ^ 64 + e.val.toNat * 2 ^ 96)

/-- A keyed addition reaches its slice: stored, spilled to the lowest place of the area that is free (assumption 53), or discarded
(R87 to R89). -/
def runRedo (s : State) (core t : Nat) (e : RedoEntry) : State :=
  let k := homeSlice e.pa
  if (s.slice k).redo.length < Config.redoEntries then s.onSlice k (fun sl => { sl with redo := sl.redo ++ [e] })
  else
    let T := s.tenant t
    match T.area.bind (fun a => (firstFree (T.areaUsed.map (·.1)) a.2).map (fun i => (a.1 + 16 * i, i))) with
    | some (pa, i) =>
      let s := targetWrite s core t (cellsOf (canonPa s pa) (redoBytes e)) false
      s.onTenant t (fun T => { T with areaUsed := T.areaUsed ++ [(i, e)] })
    | none => s.onLaunch e.slot (fun l =>
        { l with redlost := l.redlost + 1, flushErr := if l.flushErr == 7 then 7 else 0x12 })

/-- A request of a cohort is held: neither it nor a VLDF after it, which waits for its answer, is on its way any more (R114). -/
def heldFrom (s : State) (q : FutReq) : State :=
  match q.pkg with
  | some _ => s
  | none => s.onCohort q.c (fun c => { c with pend := c.pend.map (fun p =>
      if p.future && decide (q.tag ≤ p.tag) then { p with waits := 0 } else p) })

/-- A future request reaches its slice: answered, held, or refused with status 1 (R82). An empty cell of another package holds it
there. -/
def runFut (s : State) (core t : Nat) (q : FutReq) : State :=
  if rangeBad s q.pa 16 then failFuture (memError s core t q.pa) q
  else if cutOff s q.pa then failFuture s q
  else
    let s := if q.away then s else leaves s t q.pa 16 []
    if cellState s q.pa != 0 then answerFuture s q 0 (cellValue s q.pa)
    else match placeOf s q.pa with
      | .hbm =>
        if (s.slice (homeSlice q.pa)).held.length < Config.deferralEntries then
          (heldFrom s q).onSlice (homeSlice q.pa) (fun sl => { sl with held := sl.held ++ [{ q with at_ := s.clk }] })
        else countEvent (answerFuture s q 1 0) t 11 1
      | _ => (heldFrom s q).onCore core (fun C => { C with freqs := C.freqs ++ [{ q with away := true, at_ := s.clk }] })

/-- The trace record of a fill (R442 KIND 5): what the answered requests were. The identity is the filling instruction's. -/
def fillTrace (s : State) (r : StoreReq) (answered : List FutReq) : State :=
  match answered, r.who with
  | q :: qs, some w =>
    let longest := qs.foldl (fun a b => if s.clk - a.at_ < s.clk - b.at_ then b else a) q
    let where_ := match lookup s.cohorts longest.c with
      | some w => match lookup s.groups w.grp with
        | some g => (g.core / 128) * 2 ^ 30 + (g.core % 128) * 2 ^ 23 + coreSlot w * 2 ^ 18
        | none => 0
      | none => 0
    traceRecord s r.t 5 3 { w with cyc := s.clk % 2 ^ 32 } ((s.clk - longest.at_) % 2 ^ 32 * 2 ^ 32 + where_ + answered.length)
  | _, _ => s

/-- A store request performed at its target (R119). A VSTF to a bad line is not performed (R102). -/
def runStore (s : State) (core : Nat) (r : StoreReq) : State :=
  match r.cells with
  | [] => s
  | c :: _ =>
    if cutOff s c.1 then lostWrite s r.t
    else if r.fill && rangeBad s c.1 16 then memError s core r.t c.1
    else
      let answered := (filledBy (applyCells s core r.t r.cells) r.cells).map (·.2)
      let s := targetWrite s core r.t r.cells
      if r.fill then fillTrace s r answered else s

/-! ## The order of a core's requests (R70, R109 to R111, R458) -/

/-- Whether two sets of bytes meet. -/
def meets (cs : List Host.Cell) (pas : List Nat) : Bool := cs.any (fun c => pas.contains c.1)

/-- The bytes of a word. -/
def wordBytes (pa : Nat) (w64 : Bool) : List Nat := (List.range (if w64 then 8 else 4)).map (pa + ·)

/-- The bytes of a store. -/
def storePas (r : StoreReq) : List Nat := r.cells.map (·.1)

/-- The first byte of a store. -/
def storePa (r : StoreReq) : Nat := match r.cells with | c :: _ => c.1 | [] => 0

/-- Whether an address is another package's. -/
def remotePa (s : State) (pa : Nat) : Bool := match placeOf s pa with | .remote _ => true | _ => false

/-- Whether a store goes to another package. -/
def toRemote (s : State) (r : StoreReq) : Bool :=
  match r.cells with
  | [] => false
  | c :: _ => remotePa s c.1

/-- Whether two requests of one agent keep their order by where they go: they share a byte (R109), or a 256-byte granule of
another package (R458). -/
def near (s : State) (a b : List Nat) : Bool :=
  a.any (fun p => b.contains p || (remotePa s p && b.any (fun q => q / 256 == p / 256)))

/-- Whether a store must be performed before a later one of the store order: they share a byte (R109); one agent sends both to one
granule of another package (R458), or both to pages with MT = 2 (R70, R134). -/
def follows (s : State) (e r : StoreReq) : Bool :=
  meets e.cells (storePas r) || (e.c == r.c && ((e.mt == 2 && r.mt == 2 && e.lane == r.lane) || near s (storePas e) (storePas r)))

/-- Whether a cohort's future request is held, before request n: at a slice, or at another package (R82). -/
def heldBefore (s : State) (C : Core) (c n : Nat) : Bool :=
  C.freqs.any (fun q => q.c == c && q.away && decide (q.seq < n)) ||
  s.slices.any (fun p => p.2.held.any (fun q => q.pkg.isNone && q.c == c && decide (q.seq < n)))

/-- Whether a cohort has a VLDF before request n that has no answer: one that is answered with status 0 is an acquire, and completes
before any later VLDF is performed (R114, R122). -/
def futureBefore (s : State) (C : Core) (c n : Nat) : Bool :=
  C.freqs.any (fun q => q.c == c && !q.away && decide (q.seq < n)) || heldBefore s C c n

/-- Whether a cohort has issued, before request n, a read whose value is not fixed: an atomic, or a future request that is not held
(R82, R110). A VLDF that waits behind a held one counts as held (assumption 54). -/
def readsOut (s : State) (C : Core) (c n tag : Nat) : Bool :=
  C.atoms.any (fun q => q.c == c && q.tag != tag && decide (q.seq < n)) ||
  C.freqs.any (fun q => q.c == c && q.tag != tag && !q.away && decide (q.seq < n) && !heldBefore s C c q.seq)

/-- Whether request n of a cohort must wait for an earlier request of its core (R109 to R111, R458): a store before it, a reduction
of the same words, and, where it writes, a read whose value is not fixed. -/
def mustWait (s : State) (C : Core) (c n tag : Nat) (pas : List Nat) (wr : Bool) : Bool :=
  C.queue.any (fun r => r.c == c && decide (r.seq < n) && (wr || near s (storePas r) pas)) ||
  C.stores.any (fun r => decide (r.seq < n) && (meets r.cells pas || (r.c == c && near s (storePas r) pas))) ||
  C.reds.any (fun q => q.c == c && decide (q.seq < n) && near s (wordBytes q.pa q.w64) pas) ||
  C.atoms.any (fun q => q.c == c && q.tag != tag && decide (q.seq < n) && near s (wordBytes q.pa q.w64) pas) ||
  (wr && readsOut s C c n tag)

/-- Whether a future request on its way must wait: for an earlier VLDF of its cohort, or an earlier request of its core. -/
def futureWaits (s : State) (C : Core) (q : FutReq) : Bool :=
  futureBefore s C q.c q.seq || mustWait s C q.c q.seq q.tag ((List.range 16).map (q.pa + ·)) false

/-! ## Performing requests -/

/-- Stores split into those to perform and those that stay; what must precede a chosen one is chosen. -/
def chooseStores (s : State) (p : StoreReq → Bool) : List StoreReq → List StoreReq × List StoreReq
  | [] => ([], [])
  | r :: rest =>
    let x := chooseStores s p rest
    if p r || x.1.any (follows s r) then (r :: x.1, x.2) else (x.1, r :: x.2)

/-- The stores of a core that satisfy a predicate performed, in store order. -/
def settleWhere (s : State) (core : Nat) (p : StoreReq → Bool) : State :=
  let C := s.core core
  let x := chooseStores s p C.stores
  x.1.foldl (fun s r => runStore s core r) (s.setCore core { C with stores := x.2 })

/-- The stores of a core that touch given bytes performed, in store order. -/
def settleStores (s : State) (core : Nat) (pas : List Nat) : State := settleWhere s core (fun r => meets r.cells pas)

/-- The stores that a request of a cohort for given bytes must find performed: those of the same bytes, and the cohort's own to the
same granule of another package (R109, R458). -/
def settleNear (s : State) (core c : Nat) (pas : List Nat) : State :=
  settleWhere s core (fun r => meets r.cells pas || (r.c == c && near s (storePas r) pas))

/-- A VSTF of a cohort that its core still has on its way. -/
def fillOut (C : Core) (c : Nat) : Bool := (C.queue ++ C.stores).any (fun r => r.fill && r.c == c)

/-- A store takes its place in the core's store order (R111): the L1D's copy is updated (R60), or, for a VSTF, dropped. -/
def enterOrder (s : State) (core : Nat) (r : StoreReq) : State :=
  s.onCore core (fun C =>
    let C := if r.fill then r.cells.foldl (fun C p => l1Drop C p.1) C else l1Update C r.cells
    { C with stores := C.stores ++ [r] })

/-- A request of a core that is not a keyed addition. -/
inductive Sent where
  | store (r : StoreReq) | atom (q : AtomReq) | red (q : RedReq) | fut (q : FutReq)

/-- Its place in the order of issue. -/
def Sent.seq (x : Sent) : Nat := match x with | .store r => r.seq | .atom q => q.seq | .red q => q.seq | .fut q => q.seq

/-- A request taken forward: a store into the store order, any other performed, but that a VLDF waits while an earlier one has no
answer (R114). -/
def runSent (core t : Nat) (s : State) (x : Sent) : State :=
  match x with
  | .store r => enterOrder s core r
  | .atom q => runAtom (settleNear s core q.c (wordBytes q.pa q.w64)) core q
  | .red q => runRed (settleNear s core q.c (wordBytes q.pa q.w64)) core q
  | .fut q =>
    if futureBefore s (s.core core) q.c q.seq then s.onCore core (fun C => { C with freqs := C.freqs ++ [q] })
    else runFut (settleNear s core q.c ((List.range 16).map (q.pa + ·))) core t q

/-- The bytes that a cohort's atomics and future requests after request n read. -/
def readLater (C : Core) (c n : Nat) : List Nat :=
  (C.atoms.filter (fun q => q.c == c && decide (n < q.seq))).flatMap (fun q => wordBytes q.pa q.w64) ++
  (C.freqs.filter (fun q => q.c == c && !q.away && decide (n < q.seq))).flatMap (fun q => (List.range 16).map (q.pa + ·))

/-- Whether a cohort's reduction of another package's memory stays on its way for its acknowledgement: no read of given bytes, and
none that the cohort has issued after it, must follow it (R133, R458). -/
def redStays (s : State) (C : Core) (pas : List Nat) (q : RedReq) : Bool :=
  remotePa s q.pa && !near s (wordBytes q.pa q.w64) (pas ++ readLater C q.c q.seq)

/-- What a cohort has sent before request n and goes forward, in the order of issue. -/
def sentBefore (s : State) (C : Core) (c n : Nat) (pas : List Nat) : List Sent :=
  sortBy (fun a b => decide (a.seq ≤ b.seq))
    ((C.queue.filter (fun r => r.c == c && decide (r.seq < n))).map .store ++
     (C.atoms.filter (fun q => q.c == c && decide (q.seq < n))).map .atom ++
     (C.reds.filter (fun q => q.c == c && decide (q.seq < n) && !redStays s C pas q)).map .red ++
     (C.freqs.filter (fun q => q.c == c && !q.away && decide (q.seq < n))).map .fut)

/-- A core without what of a cohort goes forward before request n. -/
def withoutSent (s : State) (C : Core) (c n : Nat) (pas : List Nat) : Core :=
  { C with queue := C.queue.filter (fun r => !(r.c == c && decide (r.seq < n))),
           atoms := C.atoms.filter (fun q => !(q.c == c && decide (q.seq < n))),
           reds := C.reds.filter (fun q => !(q.c == c && decide (q.seq < n) && !redStays s C pas q)),
           freqs := C.freqs.filter (fun q => !(q.c == c && !q.away && decide (q.seq < n))) }

/-- All that a cohort has sent before request n taken forward, in the order of issue: its stores are in the core's store order, its
atomics and reductions are performed, but for those that wait for an acknowledgement, and its future requests answered or held.
A read of given bytes follows. -/
def settleOwn (s : State) (core t c n : Nat) (pas : List Nat := []) : State :=
  let C := s.core core
  match sentBefore s C c n pas with
  | [] => s
  | l => l.foldl (runSent core t) (s.setCore core (withoutSent s C c n pas))

/-- One more than the place of the last request of a cohort that is not a store: 0 where it has none on its way. -/
def lastOther (C : Core) (c : Nat) : Nat :=
  ((C.atoms.filter (·.c == c)).map (·.seq) ++ (C.reds.filter (·.c == c)).map (·.seq) ++
    (C.freqs.filter (fun q => q.c == c && !q.away)).map (·.seq)).foldl (fun m n => max m (n + 1)) 0

/-- Before a cohort's stream reads bytes: its own atomics of those bytes are performed (R109), and what R70 and R458 keep in order
before a read of a page with MT = 2, or of another package. -/
def beforeRead (s : State) (core t c : Nat) (lane : Bool) (mt : Nat) (pas : List Nat) : State :=
  let C := s.core core
  let dev := fun r : StoreReq => r.c == c && ((mt == 2 && r.mt == 2 && r.lane == lane) || (near s (storePas r) pas && toRemote s r))
  let own := fun n q (p : List Nat) => n == c && near s p pas && q
  if C.atoms.any (fun q => own q.c true (wordBytes q.pa q.w64)) || (C.queue ++ C.stores).any dev ||
      C.reds.any (fun q => own q.c (remotePa s q.pa) (wordBytes q.pa q.w64)) ||
      C.freqs.any (fun q => own q.c (remotePa s q.pa && !q.away) [q.pa]) then
    settleWhere (settleOwn s core t c C.seq pas) core dev
  else s

/-- Before a record of a cohort enters the trace: its earlier VSTFs are performed, so that the records stand in cohort order (R441). -/
def fillsFirst (s : State) (core t c : Nat) : State :=
  if (s.tenant t).trctl.getLsbD 0 && fillOut (s.core core) c then
    settleWhere (settleOwn s core t c (s.core core).seq) core (fun r => r.fill && r.c == c)
  else s

/-- Every keyed addition of a cohort performed (R123). -/
def drainRedos (s : State) (core t c : Nat) : State :=
  let C := s.core core
  let mine := C.redos.filter (fun q => q.c == c)
  if mine.isEmpty then s
  else mine.foldl (fun s q => runRedo s core t q) (s.setCore core { C with redos := C.redos.filter (fun q => q.c != c) })

/-- Every store of a core performed in store order, those to other packages left for their acknowledgements (R113, R133). -/
def drainStores (s : State) (core : Nat) : State :=
  let C := s.core core
  let s' := s.setCore core { C with stores := C.stores.filter (toRemote s) }
  (C.stores.filter (fun r => !toRemote s r)).foldl (fun s r => runStore s core r) s'

/-- Whether a core has sent another package a write that has no acknowledgement. -/
def remoteOut (s : State) (core : Nat) : Bool :=
  (s.core core).stores.any (toRemote s) || (s.core core).reds.any (fun q => remotePa s q.pa)

/-- A release of a cohort at a scope code (R112, R113): what must be performed is performed. None while the acknowledgement is missing
of a VRED of the cohort, at any scope (R78), or, from .DIE on, of a write of the core: a write is performed at another package when
that package acknowledges it (assumption 22). A release below .DIE that only holds later stores back (`fifo`) leaves the cohort's
stores in its queue, which keeps them before those (R111, R116, R137). -/
def release (s : State) (core t c scope : Nat) (fifo : Bool := false) : Option State :=
  let C := s.core core
  let s := drainRedos (settleOwn s core t c (if scope == 0 || (fifo && scope == 1) then lastOther C c else C.seq)) core t c
  if (s.core core).reds.any (fun q => q.c == c) then none
  else if scope < 2 then some s
  else
    let s := drainStores s core
    if remoteOut s core then none else some s

/-- An acquire of an agent of a core at a scope code (R61, R114). -/
def acquire (s : State) (core scope : Nat) : State := if 2 ≤ scope then l1Discard s core else s

/-- Whether a held request is a cohort's of this package. -/
def FutReq.of (q : FutReq) (c : Nat) : Bool := q.pkg.isNone && q.c == c

/-- The held future requests of a cohort cancelled, here and at other packages: answered with status 1 (R84). -/
def cancelFutures (s : State) (core t c : Nat) : State :=
  let C := s.core core
  let gone := fun q : FutReq => q.c == c && q.away
  let mine := C.freqs.filter gone
  let s := s.setCore core { C with freqs := C.freqs.filter (fun q => !gone q) }
  let held := s.slices.flatMap (fun p => p.2.held.filter (·.of c))
  let s := { s with slices := s.slices.map (fun p => (p.1, { p.2 with held := p.2.held.filter (fun q => !q.of c) })) }
  countEvent ((mine ++ held).foldl (fun s q => answerFuture s q 1 0) s) t 11 (mine ++ held).length

/-- The future requests of a cohort that leaves its region: those on their way come to their slices, which answer them (R82, R85), and
the held ones are cancelled (R84, R419). -/
def endFutures (s : State) (core t c : Nat) : State :=
  let C := s.core core
  let out := fun q : FutReq => q.c == c && !q.away
  let s := (C.freqs.filter out).foldl (fun s q => runFut s core t q) (s.setCore core { C with freqs := C.freqs.filter (fun q => !out q) })
  cancelFutures s core t c

end Sys2Proof.Machine
end

