-- ==== Sys2Proof/Machine/Ops.lean ====
section
/-! DEFINITION. The operations that the meanings share: a cohort's registers and return stack, parking, faults, TAKING A
TRAP, rolling back and returning (R413 to R426), ending a launch (R415), issuing a scalar instruction (R168, R281, R302,
R303, R316), local spaces and barrier objects (R48 to R58, R309 to R313). -/

namespace Sys2Proof.Machine

/-- What the meaning of an instruction answers. -/
abbrev Out := Host.Outcome State Fault Refusal

/-! ## A cohort and where it runs -/

/-- A cohort with its group and its launch. -/
structure Ctx where
  c  : Nat
  co : Cohort
  g  : Group
  l  : Launch

namespace Ctx
def core (x : Ctx) : Nat := x.g.core
def die (x : Ctx) : Nat := x.g.core / 128
def slot (x : Ctx) : Nat := x.g.slot
def t (x : Ctx) : Nat := x.l.t
def node (x : Ctx) : NodeCopy := x.l.node x.g.node
end Ctx

/-- A cohort, when it is resident. -/
def ctxOf (s : State) (c : Nat) : Option Ctx :=
  match lookup s.cohorts c with
  | none => none
  | some co => (launchOf s co).map (fun p => ⟨c, co, p.1, p.2⟩)

/-- Whether a cohort may issue at all: not ended, parked, halted, faulting or stopped with its launch (R181, R182, R415,
R445). -/
def Ctx.runnable (x : Ctx) : Bool :=
  !x.co.ended && x.co.park.isNone && !x.co.halted && x.co.fault.isNone && x.l.ending.isNone

/-! ## Registers -/

/-- Whether a result on its way is an error, or may still be one: an operation at a slice or an answer from outside the package is
missing (R102). -/
def Pending.doubtful (p : Pending) : Bool :=
  p.bad.isSome || p.waits != 0 || (!p.future && (p.path == .system || p.path == .remote))

namespace Cohort

/-- s[n] (R41). -/
def reg (co : Cohort) (n : Nat) : Word := get 0 co.s n
/-- s[n] written; the write gives it good parity. -/
def setReg (co : Cohort) (n : Nat) (v : Word) : Cohort := { co with s := put 0 co.s n v, badS := co.badS.filter (· != n) }
/-- The pair s[n]:s[n+1], n even, low word in s[n] (R6, R41). -/
def pair (co : Cohort) (n : Nat) : Dword := co.reg (n + 1) ++ co.reg n
/-- A pair written. -/
def setPair (co : Cohort) (n : Nat) (v : Dword) : Cohort :=
  (co.setReg n (v.setWidth 32)).setReg (n + 1) ((v >>> 32).setWidth 32)
/-- v[n] of a lane (R42). -/
def vreg (co : Cohort) (n lane : Nat) : Word := get 0 co.v (n * 32 + lane)
/-- A vector register of a lane, named by its key, written. -/
def setKey (co : Cohort) (k : Nat) (v : Word) : Cohort := { co with v := put 0 co.v k v, badV := co.badV.filter (· != k) }
/-- v[n] of a lane written. -/
def setV (co : Cohort) (n lane : Nat) (v : Word) : Cohort := co.setKey (n * 32 + lane) v
/-- Values written to their registers. -/
def setVals (co : Cohort) (scalar : Bool) (vals : List (Nat × Word)) : Cohort :=
  vals.foldl (fun co p => if scalar then co.setReg p.1 p.2 else co.setKey p.1 p.2) co

/-- What an answered VLDF writes (R378). -/
def futureVals (p : Pending) (status : Nat) (value : Dword) : List (Nat × Word) :=
  let v := if status == 0 then value else 0
  p.lanes.flatMap (fun l =>
    [(p.dreg * 32 + l, v.setWidth 32), ((p.dreg + 1) * 32 + l, BitVec.ofNat 32 status)] ++
    (if p.w64 then [((p.dreg + 2) * 32 + l, (v >>> 32).setWidth 32)] else []))

/-- A pending result written (R178). A future request without an answer writes the answer of a cancelled one (R84). -/
def deliver (co : Cohort) (p : Pending) : Cohort :=
  if p.future then
    if p.bad.isSome then co
    else match p.answer with
      | some (st, v) => co.setVals false (futureVals p st v)
      | none => co.setVals false (futureVals p 1 0)
  else co.setVals p.scalar p.vals

/-- Whether a scalar register is still being produced (R170, R281). -/
def busyReg (co : Cohort) (n : Nat) : Bool :=
  co.exports.any (fun e => e.marked && e.reg == n) || co.laneQ.any (fun b => b.marks.any (·.2 == n)) ||
  co.pend.any (fun p => p.scalar && p.regs.contains n)

/-- Whether every queued lane word has issued and completed, and every export of them has written (R107, R342, R381). -/
def laneIdle (co : Cohort) : Bool := co.laneQ.isEmpty && co.exports.isEmpty && co.vout == 0

/-- Whether an access must wait for an acquire of the cohort that is not complete (R114, R369): every access for a read that is an
acquire, and a read also for a future request, which is one when it is answered with status 0 (R122). -/
def holdsBack (co : Cohort) (rd wr : Bool) : Bool := co.pend.any (fun p => (p.acq && (rd || wr)) || (p.future && rd))

/-- Whether no result on its way can end in a trap: a join point waits for that (R102). -/
def noErrorComes (co : Cohort) : Bool := co.pend.all (fun p => !p.doubtful)

/-- Whether the lane pending map is empty (R178). -/
def lanesClear (co : Cohort) : Bool := co.pend.all (·.scalar)

/-- Issued exports write their registers (R341). -/
def flushExports (co : Cohort) : Cohort := { (co.exports.foldl (fun co e => co.setReg e.reg e.val) co) with exports := [] }

/-- The exports that issued before a fault write their registers, and the others write nothing (R342): where the fault came with a
result, those before the instruction that had sent for it. -/
def exportsBefore (co : Cohort) (f : FaultInfo) : Cohort :=
  match co.pend.find? (fun p => p.bad == some f) with
  | some p => { co with exports := co.exports.filter (fun e => decide (e.seq ≤ p.tag)) }.flushExports
  | none => co.flushExports

/-- The return entries, loops, modes and region stack of the anchor put back (R419 step 3). -/
def restoreAnchor (co : Cohort) : Cohort :=
  let a := co.anchor
  { co with loops := a.loops, mode := a.mode, fpe := a.fpe, depth := a.depth, ids := a.ids, retDepth := a.retDepth, ret := a.ret }

end Cohort

/-- A fresh identity. -/
def freshId (s : State) : Nat × State := (s.fresh, { s with fresh := s.fresh + 1 })

/-! ## Operand latch -/

/-- The entries of a cohort drop to zero uses: it parks, is saved or ends (R46). -/
def latchDrop (s : State) (core c : Nat) : State :=
  s.onCore core (fun C => { C with latch := C.latch.map (fun e => if e.2.owner = c then (e.1, { e.2 with uses := 0 }) else e) })

/-- The entries of a cohort that hold written registers drop to zero uses (R46). -/
def latchWrote (s : State) (core c : Nat) (regs : List Nat) : State :=
  s.onCore core (fun C => { C with latch := C.latch.map (fun e =>
    if e.2.owner = c && regs.contains e.2.reg then (e.1, { e.2 with uses := 0 }) else e) })

/-! ## Stores of a core -/

/-- A store of a cohort enters its store queue (R111). -/
def pushStore (s : State) (core c t mt : Nat) (fill : Bool) (cells : List Host.Cell) (lane : Bool := false)
    (who : Option TraceWho := none) : State :=
  s.onCore core (fun C => { C with queue := C.queue ++ [⟨c, t, cells, fill, mt, C.seq, lane, who⟩], seq := C.seq + 1 })

/-- An access whose page must also keep a limit: breaking it is F_PROT, and counts before F_WIN and F_PAGE (R29, R74). -/
def checkLimited (s : State) (core t va n align : Nat) (k : AccessKind) (bad : Xlat → Bool) : Except AccFault Xlat :=
  match checkAccess s core t va n align k with
  | .ok p => if bad p then .error (faultAt 4 va) else .ok p
  | .error f =>
    if (f.code == 5 || f.code == 6) && (leafXlat s core t va).any bad then .error (faultAt 4 va) else .error f

/-- The pages and places that no atomic and no reduction may touch (R74). -/
def noAtomics (p : Xlat) : Bool := p.mt == 2 || p.pa / 2 ^ 50 == 1

/-! ## Return stack -/

/-- Where the private slot keeps spilled return entry k, the oldest being 0 (R67). -/
def spillVa (x : Ctx) (k : Nat) : Nat := (x.l.parena + x.co.priv * x.l.slotSize + 8 * k) % 2 ^ 64

/-- A push onto the return stack (R67, R300). -/
def pushRet (s : State) (x : Ctx) (a : Word) : Except AccFault State :=
  let d := x.co.retDepth
  if 264 ≤ d then .error { code := 4 }
  else if d < 8 then .ok (s.onCohort x.c (fun co => { co with ret := a :: co.ret, retDepth := d + 1 }))
  else
    let va := spillVa x (d - 8)
    match checkAccess s x.core x.t va 8 8 .write with
    | .error f => .error f
    | .ok p =>
      let oldest := x.co.ret.getD 7 0
      let s := pushStore (countMisses s x.core x.t [va]) x.core x.c x.t p.mt false (cellsOf p.pa (leBytes 8 oldest.toNat))
      .ok (s.onCohort x.c (fun co => { co with ret := a :: co.ret.take 7, retDepth := d + 1 }))

/-- A pop of the return stack (R67, R300). -/
def popRet (s : State) (x : Ctx) : Except AccFault (State × Word) :=
  let d := x.co.retDepth
  let top := x.co.ret.headD 0
  if d = 0 then .error { code := 4 }
  else if d ≤ 8 then .ok (s.onCohort x.c (fun co => { co with ret := co.ret.drop 1, retDepth := d - 1 }), top)
  else
    let va := spillVa x (d - 9)
    match checkAccess s x.core x.t va 8 8 .read with
    | .error f => .error f
    | .ok p =>
      match loadBytes (beforeRead s x.core x.t x.c false p.mt ((List.range 8).map (p.pa + ·))) x.core x.c x.t va p 8 true with
      | (_, none) => .error (faultAt 7 va)
      | (s, some b) =>
        let e := leNat (b.take 4)
        if e % 4 != 0 then .error (faultAt 3 e)
        else .ok (s.onCohort x.c (fun co => { co with ret := (co.ret.drop 1).take 7 ++ [BitVec.ofNat 32 e], retDepth := d - 1 }), top)

/-! ## Ending a launch -/

/-- The end of a launch begins (R190, R193, R415): nothing of it issues any more. LAUNCH_FAULT_END or LAUNCH_COMPLETE
finishes it. The first end stands, but that F_REC stands before an F_DEAD of the same clk (R216). -/
def endLaunch (s : State) (slot end_ cause : Nat) : State :=
  s.onLaunch slot (fun l =>
    if l.ending.isSome && !(l.ending == some (2, 0x11) && l.endAt == s.clk && cause == 0x10) then l
    else { l with ending := some (end_, cause), endAt := s.clk })

/-! ## Rollback, traps and parking -/

/-- All that a cohort has sent so far taken forward: its reads have their values, and its stores are seen by its core (R110,
R111). -/
def settleCtx (s : State) (x : Ctx) : State := settleOwn s x.core x.t x.c (s.core x.core).seq

/-- Whether a cohort has a future request that was answered with status 0: its delivery is an acquire (R122). -/
def filled (s : State) (c : Nat) : Bool :=
  (lookup s.cohorts c).any (fun co => co.pend.any (fun p => p.future && p.bad.isNone && p.answer.any (fun a => a.1 == 0)))

/-- A rollback (R419): the lane queue is discarded, results in flight are written, held requests are cancelled, and the
anchor's state is back. -/
def rollback (s : State) (x : Ctx) : State :=
  let s := endFutures (settleCtx s x) x.core x.t x.c
  let s := if filled s x.c then acquire s x.core 3 else s
  let s := latchDrop s x.core x.c
  let s := s.onGroup x.co.grp (fun g => { g with waits := g.waits.filter (fun w => w.agent != x.co.ix) })
  s.onCohort x.c (fun co =>
    let co := co.pend.foldl Cohort.deliver co
    { co with laneQ := [], exports := [], pend := [], runW := [], park := none, fault := none, cont := false }.restoreAnchor)

/-- Continuing at the anchor (R422). -/
def continueAt (s : State) (x : Ctx) : Except AccFault State :=
  let a := x.co.anchor
  let s := s.onCohort x.c (fun co => { co with gap := 0, stub := none })
  if a.ix == 1023 then .ok (s.onCohort x.c (fun co => { co with spc := a.spc }))
  else if a.entry.stub.getLsbD 0 then
    match pushRet s x (a.spc + 4) with
    | .error f => .error f
    | .ok s => .ok (s.onCohort x.c (fun co =>
        { co with spc := a.entry.stub &&& 0xFFFFFFFC, stub := some x.co.retDepth }))
  else .ok (s.onCohort x.c (fun co => { co with spc := a.spc + 4 }))

/-- The cohorts of a group. -/
def cohortsOf (s : State) (g : Nat) : List (Nat × Cohort) := s.cohorts.filter (fun p => p.2.grp == g)

/-- Whether a trapped cohort may enter its handler now: none of its group runs one, and no lower COHIX waits (R424). -/
def handlerTurn (s : State) (x : Ctx) : Bool :=
  (cohortsOf s x.co.grp).all (fun p => p.1 == x.c ||
    (!(p.2.handler && !p.2.ended) && !(p.2.park == some .handler && decide (p.2.ix < x.co.ix))))

/-- The handler is entered (R424 step 6). -/
def enterHandler (s : State) (c : Nat) : State :=
  s.onCohort c (fun co =>
    { co with shadow := (List.range 16).map (fun i => co.reg (48 + i)), cb := co.hbase.extractLsb' 32 28,
              spc := co.hbase.setWidth 32 &&& 0xFFFFFFFC, gap := 0, handler := true, park := none })

/-- What trap entry records (R413, R414). -/
def recordCause (co : Cohort) (f : FaultInfo) : Cohort :=
  { co with cause := BitVec.ofNat 32 (co.anchor.ix * 4096 + 2048 + f.src * 256 + f.code), xpc := f.xpc,
            xlw := BitVec.ofNat 32 f.xlw, xaddrlo := f.lo, xaddrhi := f.hi }

/-- A cohort of a higher COHIX that has trapped in this clk, and entered its handler, waits again: when two trap in one clk, the
handler of the lower COHIX runs first (R437). -/
def stepBack (s : State) (x : Ctx) : State :=
  { s with cohorts := s.cohorts.map (fun p =>
    if p.2.grp == x.co.grp && decide (x.co.ix < p.2.ix) && p.2.handler && !p.2.ended && p.2.trapAt == some s.clk then
      (p.1, { p.2 with handler := false, park := some .handler })
    else p) }

/-- TAKING A TRAP (R424, R425): the cause is recorded, the cohort rolls back, and it enters its tenant's handler, waits for
its turn, or, where no handler is to be had or it runs one already, its launch ends. -/
def trapEntry (s : State) (x : Ctx) (f : FaultInfo) : State :=
  if x.co.handler then endLaunch s x.slot 2 f.code
  else
    let s := s.onCohort x.c (fun co => recordCause (co.exportsBefore f) f)
    let s := rollback s x
    let T := s.tenant x.t
    let hgap := bitsOf T.thctl.toNat 15 0
    if !T.thctl.getLsbD 16 || hgap == 0 then endLaunch s x.slot 2 f.code
    else
      let s := stepBack (s.onCohort x.c (fun co => { co with hbase := T.thbase, hgap := hgap, trapAt := some s.clk })) x
      if handlerTurn s x then enterHandler s x.c else s.onCohort x.c (fun co => { co with park := some .handler })

/-- Whether a future request of a cohort is held, at a slice or at another package (R82, R180). -/
def holdsFuture (s : State) (c : Nat) : Bool :=
  s.slices.any (fun p => p.2.held.any (·.of c)) || s.cores.any (fun p => p.2.freqs.any (fun q => q.c == c && q.away))

/-- A cohort that is parked when its group is to be saved rolls back and is held (R427); in a halted group not before its release
(R445). Exports that issued before the word of a page fault write their registers (R342). -/
def holdParked (s : State) (c : Nat) : State :=
  match ctxOf s c with
  | none => s
  | some x =>
    let goes := match x.co.park with
      | some (.barrier _ _) => true
      | some (.page _) => true
      | some (.batch _) => true
      | some .results => holdsFuture s c
      | _ => false
    if x.g.save && x.g.halt.isNone && goes && !x.co.handler && !x.co.ended then
      (rollback (s.onCohort c Cohort.flushExports) x).onCohort c (fun co => { co with park := some .saved })
    else s

/-- A cohort parks (R46, R181). -/
def parkCohort (s : State) (x : Ctx) (p : Park) : State :=
  holdParked ((latchDrop s x.core x.c).onCohort x.c (fun co => { co with park := some p, parkAt := s.clk })) x.c

/-- A scalar instruction issues and parks its cohort: its stream no longer waits for an issue (R181, R186). -/
def parkIssued (s : State) (x : Ctx) (p : Park) : State :=
  parkCohort (s.onCohort x.c (fun co => { co with waitS := 0, liftS := false })) x p

/-- The fault-ring entries of page faults (R30): one for each page and kind of a core, an outstanding one shared. Their walks have
read the tables. -/
def openEntries (s : State) (t core agent : Nat) (pages : List PageFault) : State × List Nat :=
  pages.foldl (fun acc p =>
    let s := walked acc.1 core t p.va
    match (s.tenant t).faults.find? (fun e => e.core == core && e.va == p.va && e.kind == p.kind) with
    | some e => (s, if acc.2.contains e.id then acc.2 else acc.2 ++ [e.id])
    | none =>
      let (id, s) := freshId s
      (s.onTenant t (fun T => { T with faults := T.faults ++ [⟨id, p.va, none, p.kind, agent, core, p.lvl, p.reason⟩] }),
        acc.2 ++ [id])) (s, [])

/-- A cohort waits on fault-ring entries (R29, R30, R182). -/
def parkOnPages (s : State) (x : Ctx) (agent : Nat) (pages : List PageFault) (f : FaultInfo) : State :=
  let (s, ids) := openEntries s x.t x.core agent pages
  let s := s.onCohort x.c (fun co =>
    { co with fault := some f, xpc := f.xpc, xlw := BitVec.ofNat 32 f.xlw, xaddrlo := f.lo, xaddrhi := f.hi })
  parkCohort s x (.page ids)

/-- The walk of a translation that failed: its reads, and the uncorrectable table entry that it met (R20, R102). -/
def reportPte (s : State) (x : Ctx) (f : AccFault) : State :=
  let s := match f.walk with | some va => walked s x.core x.t va | none => s
  match f.pte with
  | some pa => memError s x.core x.t pa
  | none => s

/-- A cohort continues at its anchor without an instruction, after a resume (R422, R434): a push that meets F_PAGE parks and replays as
CALL's does, any other fault traps. -/
def continueCohort (s : State) (x : Ctx) : State :=
  match continueAt s x with
  | .ok s => s.onCohort x.c (fun co => { co with cont := false })
  | .error f =>
    let info : FaultInfo := { code := f.code, xpc := x.co.spc, lo := f.lo, hi := f.hi }
    if f.code == 0 then s.onCohort x.c (fun co => { co with cont := true })
    else if f.code == 6 then parkOnPages (s.onCohort x.c (fun co => { co with cont := true })) x 0 f.pages info
    else trapEntry (reportPte s x f) x info

/-- Whether a cohort has halted: at an instruction, or in its park (R444). -/
def Ctx.stopped (x : Ctx) : Bool := x.co.halted || (x.g.halt.isSome && x.co.park.isSome)

/-- Whether a trap of a cohort must wait: for its lane queue to drain (R183), its spawn to be done (R381), or its release from a
halt (R445). -/
def Ctx.trapWaits (x : Ctx) (f : FaultInfo) : Bool :=
  x.stopped || x.co.park == some .spawn || x.co.vout != 0 || (f.src != 1 && !x.co.laneIdle)

/-- A trap of a cohort, kept while it must wait. -/
def faultCohort (s : State) (c : Nat) (f : FaultInfo) : State :=
  match ctxOf s c with
  | none => s
  | some x =>
    if x.trapWaits f then
      s.onCohort c (fun co => if co.fault.isSome then co else { co with fault := some f })
    else trapEntry s x f

/-- A fault of a scalar instruction (R183): the words in the lane queue issue first. What must wait stalls (R466). -/
def scalarFault (s : State) (x : Ctx) (f : AccFault) : State :=
  let info : FaultInfo := { code := f.code, src := 0, xpc := x.co.spc, lo := f.lo, hi := f.hi }
  if f.code == 0 then s
  else if f.code == 6 then
    if x.co.laneIdle then parkOnPages s x (f.agent.getD 0) f.pages info else s
  else faultCohort (reportPte s x f) x.c info

/-- A fault of the lane word at the head of the queue (R182). What must wait stalls (R466). -/
def laneFault (s : State) (x : Ctx) (spc : Word) (ix : Nat) (f : AccFault) : State :=
  let info : FaultInfo := { code := f.code, src := 1, xpc := spc, xlw := ix, lo := f.lo, hi := f.hi }
  if f.code == 0 then s
  else if f.code == 6 then parkOnPages s x 1 f.pages info
  else trapEntry (reportPte s x f) x info

/-! ## Issuing a scalar instruction -/

/-- Where control goes after a scalar instruction. -/
inductive Ctl where
  /-- To the next instruction, or back to the start of a loop (R302). -/
  | seq
  /-- A taken transfer: a loop whose range the target leaves ends (R303). -/
  | taken (target : Word)
  /-- A transfer that ends no loop (R303). -/
  | goto (target : Word)

/-- What the body of a scalar instruction answers. -/
inductive SRes where
  | done (s : State) (ctl : Ctl)
  /-- A stall or a park: the instruction issues again later. -/
  | wait (s : State)
  | fault (s : State) (f : AccFault)

/-- The registers that an instruction uses, its words, and how it waits. -/
structure Use where
  regs : List Nat := []
  reads : List Nat := []
  len  : Nat := 1
  join : Bool := false
  safe : Bool := false
  /-- Whether it reads, or writes, memory or a local space. -/
  rd   : Bool := false
  wr   : Bool := false

/-- The loop-back after an instruction at an address (R302): the loops and the next SPC. -/
def loopBack (lp : LoopRegs) (a next : Word) : LoopRegs × Word :=
  if lp.lc1 != 0 && lp.le1 == a && decide (1 < lp.lc1.toNat) then ({ lp with lc1 := lp.lc1 - 1 }, lp.ls1)
  else
    let lp := if lp.lc1 != 0 && lp.le1 == a then { lp with lc1 := 0 } else lp
    if lp.lc0 != 0 && lp.le0 == a then
      if 1 < lp.lc0.toNat then ({ lp with lc0 := lp.lc0 - 1 }, lp.ls0) else ({ lp with lc0 := 0 }, next)
    else (lp, next)

/-- Whether an address lies in a loop's range. -/
def inLoop (ls le a : Word) : Bool := decide (ls.toNat ≤ a.toNat) && decide (a.toNat ≤ le.toNat)

/-- The loops after a taken transfer (R303). -/
def leaveLoops (lp : LoopRegs) (target : Word) : LoopRegs :=
  { lp with lc0 := if inLoop lp.ls0 lp.le0 target then lp.lc0 else 0,
            lc1 := if inLoop lp.ls1 lp.le1 target then lp.lc1 else 0 }

/-- A cohort after its instruction has completed: the safe gap, SPC and the loops (R302, R303, R316). -/
def Cohort.advance (co : Cohort) (u : Use) (ctl : Ctl) : Cohort :=
  let co := { co with gap := if u.safe then 0 else co.gap + 1, waitS := 0, liftS := false }
  match ctl with
  | .seq =>
    let r := loopBack co.loops co.spc (co.spc + BitVec.ofNat 32 (4 * u.len))
    { co with loops := r.1, spc := r.2 }
  | .taken a => { co with loops := leaveLoops co.loops a, spc := a }
  | .goto a => { co with spc := a }

/-- The completion of a scalar instruction. -/
def retire (s : State) (x : Ctx) (u : Use) (ctl : Ctl) : State :=
  countEvent (s.onCohort x.c (fun co => co.advance u ctl)) x.t 2 1

/-- The greatest safe-gap count (R316, R425). -/
def gapLimit (x : Ctx) : Nat := if x.co.handler then x.co.hgap else x.node.sgap

/-- The halt of a loader (false) or storer that waits to be delivered (R147). -/
def RvCore.due (r : RvCore) : Bool := r.mode == .halted && !r.hdlv

/-- The trap that a halted loader or storer delivers to cohort 0 (R147), once the lane queue has drained (R183). -/
def haltTrap (s : State) (x : Ctx) (st : Bool) (r : RvCore) : State :=
  if !x.co.laneIdle then s
  else
    let s := s.onGroup x.co.grp (fun g => if st then { g with storer := { g.storer with hdlv := true } }
                                          else { g with loader := { g.loader with hdlv := true } })
    faultCohort s x.c { code := r.hcode, src := if st then 3 else 2, xpc := x.co.spc, lo := r.pc.setWidth 32,
                        hi := (r.pc >>> 32).setWidth 32 }

/-- The issue of a scalar instruction of a cohort: the checks that every instruction shares, then its body. -/
def issueIn (s : State) (x : Ctx) (u : Use) (body : State → Ctx → SRes) : State :=
  if !x.runnable then s
  else if x.co.ix == 0 && x.g.loader.due then haltTrap s x false x.g.loader
  else if x.co.ix == 0 && x.g.storer.due then haltTrap s x true x.g.storer
  else if u.regs.any x.co.busyReg then s
  else if u.reads.any x.co.badS.contains then
    scalarFault (addError s ⟨5, true, x.die, x.t, x.core, (u.reads.find? x.co.badS.contains).getD 0⟩) x { code := 7 }
  else if !u.safe && decide (gapLimit x ≤ x.co.gap) then
    scalarFault s x { code := 13, lo := BitVec.ofNat 32 x.node.sgap }
  else if (u.join && !(x.co.laneIdle && x.co.noErrorComes)) || x.co.holdsBack u.rd u.wr then s
  else match body s x with
    | .done s ctl => retire s x u ctl
    | .wait s => s
    | .fault s f => scalarFault s x f

/-- The issue of a scalar instruction by the cohort that executes. -/
def issueS (s : State) (u : Use) (body : State → Ctx → SRes) : Out :=
  match s.cur with
  | .cohort c => match ctxOf s c with
    | some x => .next (issueIn s x u body)
    | none => .fault .noAgent
  | _ => .fault .noAgent

/-- An instruction that writes one register with a value computed from the cohort. -/
def issueReg (s : State) (reads : List SReg) (d : SReg) (f : Cohort → Word) (len : Nat := 1) : Out :=
  issueS s { regs := d.toNat :: reads.map (·.toNat), reads := reads.map (·.toNat), len := len } (fun s x =>
    .done (s.onCohort x.c (fun co => co.setReg d.toNat (f x.co))) .seq)

/-- The two registers of a pair. -/
def pairRegs (r : SReg) : List Nat := [r.toNat, r.toNat + 1]

/-! ## Local spaces -/

namespace Group

/-- A local space: 0 scratchpad, 1 WBUF, 2 ABUF, 3 CBUF (R153). -/
def space (g : Group) (k : Nat) : List Host.Cell :=
  match k with | 0 => g.sp | 1 => g.wb | 2 => g.ab | _ => g.cb
/-- A local space replaced. -/
def setSpace (g : Group) (k : Nat) (m : List Host.Cell) : Group :=
  match k with | 0 => { g with sp := m } | 1 => { g with wb := m } | 2 => { g with ab := m } | _ => { g with cb := m }
/-- Whether a range of a space holds an uncorrectable doubleword. -/
def rangeBad (g : Group) (k off n : Nat) : Bool :=
  g.bad.any (fun b => b.1 == k && decide (b.2 < off + n) && decide (off < b.2 + 8))
/-- n bytes of a space. -/
def read (g : Group) (k off n : Nat) : List Byte := bytesAt (g.space k) off n
/-- Bytes written to a space; a doubleword written whole is good again. -/
def write (g : Group) (k off : Nat) (b : List Byte) : Group :=
  { g.setSpace k (writeCells (g.space k) (cellsOf off b)) with
      bad := g.bad.filter (fun d => !(d.1 == k && decide (off ≤ d.2) && decide (d.2 + 8 ≤ off + b.length))) }

end Group

/-- The check of an access of n bytes to a local space: alignment, then the allocation (R48, R49, R52, R54). -/
def checkLocal (x : Ctx) (k : Nat) (off : Int) (n align : Nat) : Option AccFault :=
  let lo := lowBits off 64
  if lo % align != 0 then some (faultAt 3 lo)
  else if off < 0 then some (faultAt 4 lo)
  else if x.node.alloc k < off.toNat + n then some (faultAt 4 lo)
  else none

/-- A read of the scratchpad for an instruction: F_DATA at an uncorrectable doubleword (R40). -/
def readLocal (s : State) (x : Ctx) (k off n : Nat) : Except (State × AccFault) (List Byte) :=
  match lookup s.groups x.co.grp with
  | none => .ok (List.replicate n 0)
  | some g => if g.rangeBad k off n then .error (addError s ⟨if k == 0 then 7 else 8, true, x.die, x.t, x.core, off⟩, faultAt 7 off)
              else .ok (g.read k off n)

/-! ## Barrier objects -/

/-- A barrier object (R309). -/
structure Bar where
  phase : Nat
  expa : Nat
  arr  : Nat
  expb : Nat
  landb : Nat
  lasta : Nat
  longw : Nat
  longt : Nat
  drops : Nat
  scope : Nat
  pscope : Nat
  deriving DecidableEq, Repr

/-- The object at an offset. -/
def readBar (g : Group) (off : Nat) : Bar :=
  let b := bytesAt g.sp off 28
  let f := fun i n => leNat ((b.drop i).take n)
  ⟨f 0 4, f 4 2, f 6 2, f 8 4, f 12 4, f 16 2, f 18 2, f 20 4, f 24 2, f 26 1, f 27 1⟩

/-- The object written. -/
def writeBar (g : Group) (off : Nat) (b : Bar) : Group :=
  g.write 0 off (leBytes 4 b.phase ++ leBytes 2 b.expa ++ leBytes 2 b.arr ++ leBytes 4 b.expb ++ leBytes 4 b.landb ++
    leBytes 2 b.lasta ++ leBytes 2 b.longw ++ leBytes 4 b.longt ++ leBytes 2 b.drops ++ leBytes 1 b.scope ++
    leBytes 1 b.pscope ++ leBytes 4 0)

/-- Whether phase p has completed when the object stands at a phase (R310). -/
def phaseDone (phase p : Nat) : Bool := decide (0 < sext (phase + 2 ^ 32 - p % 2 ^ 32) 32)

/-- The scope of the acquire of a completed phase (R126). -/
def phaseScope (b : Bar) (p : Nat) : Nat := if (b.phase + 2 ^ 32 - 1) % 2 ^ 32 == p % 2 ^ 32 then b.pscope else 5

/-- How late in the order of R313 an operation of an agent reaches an object's port within one clk: loader, storer, then the
cohorts by COHIX. -/
def portRank (agent : Nat) : Nat :=
  if agent < 0x2000 then 2 + agent % 32 else if agent / 0x2000 % 2 == 1 then 0 else 1

/-- Whether an operation of an agent may still reach an object's port in this clk (R313). -/
def Group.portOpen (g : Group) (off clk agent : Nat) : Bool :=
  g.port.all (fun p => p.1 != off || p.2.1 != clk || decide (p.2.2 ≤ portRank agent))

/-- The port after an operation of an agent. -/
def Group.portUsed (g : Group) (off clk agent : Nat) : Group :=
  { g with port := g.port.filter (fun p => p.1 != off) ++ [(off, clk, portRank agent)] }

/-- A wait on an object begins, or goes on (R443). -/
def Group.waitOn (g : Group) (w : BarWait) : Group :=
  if g.waits.any (fun v => v.agent == w.agent && v.off == w.off && v.phase == w.phase) then g
  else { g with waits := g.waits.filter (fun v => v.agent != w.agent) ++ [w] }

/-- An agent waits no more. -/
def Group.waitEnds (g : Group) (agent : Nat) : Group := { g with waits := g.waits.filter (fun v => v.agent != agent) }

/-- The agent codes of R443. -/
def agentLoaderEngine : Nat := 0x2000
def agentStorerEngine : Nat := 0x4000
def agentLoader : Nat := 0x6000
def agentStorer : Nat := 0x8000

/-- An object after an update by an agent: its phase completes when arrivals and bytes are met (R310, R443). -/
def settleBar (g : Group) (off clk agent : Nat) (b : Bar) : Group :=
  if b.arr == b.expa && b.landb == b.expb then
    let phase := (b.phase + 1) % 2 ^ 32
    let ended := g.waits.filter (fun w => w.off == off && phaseDone phase w.phase.toNat)
    let longest := ended.foldl (fun (a : Nat × Nat) w =>
      let t := min (clk - w.at_) (2 ^ 32 - 1)
      if a.1 == 0xFFFF || a.2 < t || (t == a.2 && w.agent < a.1) then (w.agent, t) else a) (0xFFFF, 0)
    writeBar { g with waits := g.waits.filter (fun w => !(w.off == off && phaseDone phase w.phase.toNat)) } off
      { b with phase := phase, expa := (b.expa + 2 ^ 16 - b.drops) % 2 ^ 16, arr := 0, expb := 0, landb := 0, drops := 0,
               lasta := agent, longw := longest.1, longt := longest.2, pscope := max 1 b.scope, scope := 1 }
  else writeBar g off b

/-- An arrival, or a drop, at an object (R312); none is F_BAR. -/
def arriveBar (g : Group) (off clk agent scope : Nat) (drop : Bool) : Option (Group × Nat) :=
  let b := readBar g off
  if b.arr == b.expa && decide (b.landb < b.expb) then none
  else if drop && b.expa == b.drops + 1 then none
  else some (settleBar g off clk agent { b with arr := (b.arr + 1) % 2 ^ 16, scope := max b.scope scope,
                                                drops := if drop then (b.drops + 1) % 2 ^ 16 else b.drops }, b.phase)

/-- Bytes added to what a phase expects (R312); none is F_BAR. -/
def expectBar (g : Group) (off clk agent n : Nat) : Option (Group × Nat) :=
  let b := readBar g off
  if 2 ^ 32 ≤ b.expb + n then none else some (settleBar g off clk agent { b with expb := b.expb + n }, b.phase)

/-- Landed bytes counted (R157, R164); none is F_BAR. -/
def landBar (g : Group) (off clk agent scope n : Nat) : Option Group :=
  let b := readBar g off
  if b.expb < b.landb + n then none
  else some (settleBar g off clk agent { b with landb := b.landb + n, scope := max b.scope scope })

end Sys2Proof.Machine
end

