-- ==== Sys2Proof/Machine/Operands.lean ====
section
/-! DEFINITION. The operand forms of a lane word: source codes, pairs and groups, the registers that it reads and writes,
the operand latch (R41 to R47, R276), the address forms of a memory word (R363 to R366), and the issue of a lane word
(R171, R178 to R182, R278). -/

namespace Sys2Proof.Machine

/-! ## Registers that a lane word uses -/

/-- The registers from r on. -/
def regsFrom (r : BitVec 8) (n : Nat) : List Nat := (List.range n).map (r.toNat + ·)

/-- The vector registers of a source field that starts n registers. -/
def codeRegs (used : Bool) (code : BitVec 9) (n : Nat) : List Nat :=
  if used && isVec code then (List.range n).map (code.toNat + ·) else []

/-- Bytes of a width code (R367). -/
def wdBytes (wd : Nat) : Nat := match wd with | 0 => 4 | 1 => 1 | 2 => 2 | 3 => 8 | _ => 16

/-- The registers that data of a width fills (R368). -/
def wdRegs (wd : Nat) : Nat := max 1 (wdBytes wd / 4)

/-- The registers that VCVT and VPACK read from A (R354, R357). -/
def groupSize (op : Nat) (w : LaneWord) : Nat :=
  if op == 0x3D then max 1 (tyCount w.tyn / tyCount w.src)
  else if op == 0x40 then (if w.mdn % 4 == 1 then 4 else 2) else 1

/-- The registers that A starts: a pair of an address, of a 64-bit value or of a handle, or a group (R276, R345, R363). -/
def aCount (op : Nat) (w : LaneWord) : Nat :=
  match op with
  | 0x3D | 0x40 => groupSize op w
  | 0x67 => if w.md.getLsbD 1 then 2 else 1
  | 0x68 => if w.md.getLsbD 0 then 2 else 1
  | 0x80 | 0x81 | 0x85 | 0x86 | 0x8B => if w.sm == 0 then 2 else 1
  | 0x82 | 0x83 | 0x84 => if w.am == 0 then 2 else 1
  | 0x87 => 2
  | _ => 1

/-- Data registers that a word reads through D (R44, R363). -/
def dataRegs (op : Nat) (w : LaneWord) : List Nat :=
  match op with
  | 0x81 => regsFrom w.d (wdRegs w.wd)
  | 0x82 => if w.opr == 7 then regsFrom w.d (if w.aw64 then 2 else 1) else []
  | 0x83 => regsFrom w.d (if w.aw64 then 2 else 1)
  | 0x84 => regsFrom w.d 1
  | 0x86 => regsFrom w.d (if w.fw64 then 2 else 1)
  | 0x87 => regsFrom w.d (2 * (w.mdn / 16 % 32 + 1))
  | 0x8A => regsFrom w.d (wdRegs w.bwd)
  | _ => []

/-- The vector registers that a word reads. -/
def laneReads (op : Nat) (w : LaneWord) : List Nat :=
  match laneShape op w with
  | none => []
  | some sh =>
    codeRegs sh.usesA w.a (aCount op w) ++ codeRegs sh.usesB w.b 1 ++
      codeRegs sh.usesC w.c (if op == 0x82 && w.aw64 then 2 else 1) ++ dataRegs op w

/-- The vector registers that a word writes (R42, R178). -/
def laneWrites (op : Nat) (w : LaneWord) : List Nat :=
  match op with
  | 0x00 | 0x64 | 0x65 | 0x67 | 0x81 | 0x83 | 0x84 | 0x86 | 0x87 | 0x8A | 0x8B => []
  | 0x80 => regsFrom w.d (wdRegs w.wd)
  | 0x82 => regsFrom w.d (if w.aw64 then 2 else 1)
  | 0x85 => regsFrom w.d (if w.fw64 then 3 else 2)
  | 0x88 => regsFrom w.d 4
  | 0x89 => regsFrom w.d (wdRegs w.bwd)
  | _ => regsFrom w.d 1

/-- Whether a word's results are not interlocked (R178). -/
def laneLate (op : Nat) : Bool := [0x80, 0x82, 0x85, 0x88, 0x89].contains op

/-- Whether a source is served from the operand latch (R46). -/
def latchHit (s : State) (x : Ctx) (pos : Nat) (code : BitVec 9) (hold : BitVec 2) : Bool :=
  let e := get {} (s.core x.core).latch (x.co.sched * 3 + pos)
  hold == 2 && e.owner == x.c && e.reg == code.toNat && decide (0 < e.uses)

/-- The clk in which a word reads its sources (R44). -/
def readCycles (s : State) (x : Ctx) (op : Nat) (w : LaneWord) : Nat :=
  match laneShape op w with
  | none => 1
  | some sh =>
    let one := fun pos used (code : BitVec 9) hold n => if latchHit s x pos code hold then [] else codeRegs used code n
    let used := dedup (one 0 sh.usesA w.a w.holdA (aCount op w) ++ one 1 sh.usesB w.b w.holdB 1 ++
      one 2 sh.usesC w.c w.holdC (if op == 0x82 && w.aw64 then 2 else 1) ++ dataRegs op w)
    1 + ([0, 1, 2, 3].map (fun b => (used.filter (fun r => r % 4 == b)).length - 1)).foldl (· + ·) 0

/-- The operand latch after a word has issued (R45, R46). -/
def latchAfter (s : State) (x : Ctx) (op : Nat) (w : LaneWord) : State :=
  match laneShape op w with
  | none => s
  | some sh =>
    let cap := fun used (code : BitVec 9) (hold : BitVec 2) => used && isVec code && hold == 1
    let caps := [(0, cap sh.usesA w.a w.holdA, w.a), (1, cap sh.usesB w.b w.holdB, w.b), (2, cap sh.usesC w.c w.holdC, w.c)]
    s.onCore x.core (fun C =>
      let low := C.latch.map (fun e =>
        if e.2.owner = x.c && e.1 / 3 == x.co.sched then (e.1, { e.2 with uses := e.2.uses - 1 }) else e)
      let taken := caps.foldl (fun m p =>
        if p.2.1 then store m (x.co.sched * 3 + p.1)
          ⟨x.c, p.2.2.toNat, 2, lanes32.map (fun l => x.co.vreg p.2.2.toNat l)⟩ else m) low
      { C with latch := taken.map (fun e =>
          if e.2.owner = x.c && (laneWrites op w).contains e.2.reg then (e.1, { e.2 with uses := 0 }) else e) })

/-! ## Issuing a lane word -/

/-- A lane word that issues: its cohort, its block, its fields and the lanes of its effective mask. -/
structure LCtx where
  x   : Ctx
  blk : LaneBlock
  w   : LaneWord

namespace LCtx

/-- A source operand in a lane (R276). -/
def src (k : LCtx) (code : BitVec 9) (lane : Nat) : Word :=
  let n := code.toNat
  if n ≤ 255 then k.x.co.vreg n lane
  else if n ≤ 271 then k.blk.window.getD (n - 256) 0
  else if n == 272 then k.w.imm
  else if n == 273 then BitVec.ofNat 32 lane
  else if n == 274 then BitVec.ofNat 32 k.x.co.ix
  else 0

/-- A 64-bit source operand in a lane (R276). -/
def src64 (k : LCtx) (code : BitVec 9) (lane : Nat) : Dword := k.src (code + 1) lane ++ k.src code lane

def a (k : LCtx) (lane : Nat) : Word := k.src k.w.a lane
def b (k : LCtx) (lane : Nat) : Word := k.src k.w.b lane
def c (k : LCtx) (lane : Nat) : Word := k.src k.w.c lane
/-- Register D + n of a lane, read as data. -/
def dreg (k : LCtx) (n lane : Nat) : Word := k.x.co.vreg (k.w.d.toNat + n) lane
/-- The lanes of the effective mask, ascending (R171). -/
def act (k : LCtx) : List Nat := maskLanes k.blk.mask
def active (k : LCtx) (lane : Nat) : Bool := k.blk.mask.getLsbD lane
/-- The key of register D + n in a lane. -/
def dkey (k : LCtx) (n lane : Nat) : Nat := (k.w.d.toNat + n) * 32 + lane

end LCtx

/-- What the body of a lane word answers. -/
inductive LRes where
  | done (s : State)
  /-- A stall or a park: the word issues again later. -/
  | wait (s : State)
  | fault (s : State) (f : AccFault)

/-- A lane stream may issue while a scalar fault waits for it (R183), not while a lane fault does (R182), nor while a VSPAWN of it is
not complete (R381). -/
def Ctx.laneRunnable (x : Ctx) : Bool :=
  !x.co.ended && x.co.park.isNone && !x.co.halted && x.co.vout == 0 && !x.co.fault.any (fun f => f.src == 1) && x.l.ending.isNone

/-- The head block after its word has issued: it leaves the queue with its last word (R169). -/
def Cohort.nextWord (co : Cohort) : Cohort :=
  match co.laneQ with
  | [] => co
  | b :: r => { co with laneQ := if b.next + 1 < b.words.length then { b with next := b.next + 1 } :: r else r }

/-- What a memory opcode does that an acquire of its cohort may hold back (R114): whether it reads, and whether it writes. A VLDF
does not wait for another one (assumption 54). -/
def laneAccess (op : Nat) : Bool × Bool :=
  match op with
  | 0x80 | 0x88 | 0x89 => (true, false)
  | 0x81 | 0x83 | 0x84 | 0x85 | 0x86 | 0x87 | 0x8A => (false, true)
  | 0x82 => (true, true)
  | _ => (false, false)

/-- The completion of a lane word that took `clks` to read its sources: the latch, the run, the queue and the switch bit (R46,
R179, R180). -/
def finishWord (s : State) (x : Ctx) (blk : LaneBlock) (op : Nat) (w : LaneWord) (clks : Nat) : State :=
  let s := latchAfter s x op w
  let s := s.onCohort x.c (fun co =>
    { co.nextWord with waitL := 0, liftL := false,
                       runW := if w.sw then [] else if laneLate op then co.runW ++ laneWrites op w else co.runW })
  let s := countEvent (countEvent (countEvent s x.t 3 1) x.t 4 (maskLanes blk.mask).length) x.t 14 (clks - 1)
  match lookup s.cohorts x.c with
  | some co => if w.sw && !co.lanesClear && co.park.isNone then parkCohort s x .results else s
  | none => s

/-- The register that F_RUNHZ names: a register of a hazard; which one of several is a free value. -/
def hazard (regs : List Nat) : Option Nat :=
  match regs with
  | [] => none
  | r :: rest => some ((r :: rest).getD (Config.hazardPick (r :: rest) % (rest.length + 1)) r)

/-- The issue of a lane word of a cohort: checks 2 and 3 of R278, parity, then its body. -/
def issueLIn (s : State) (x : Ctx) (op : Nat) (w : LaneWord) (body : State → LCtx → LRes) : State :=
  if !x.laneRunnable then s
  else match x.co.laneQ with
    | [] => s
    | blk :: _ =>
      let regs := laneReads op w ++ laneWrites op w
      let flt := fun s f => laneFault s x blk.spc blk.next f
      if regs.any (fun r => decide (x.co.nv ≤ r)) then flt s { code := 1 }
      else match hazard (regs.filter x.co.runW.contains) with
        | some r => flt s { code := 9, lo := BitVec.ofNat 32 r }
        | none =>
          match (laneReads op w).find? (fun r => (maskLanes blk.mask).any (fun l => x.co.badV.contains (r * 32 + l))) with
          | some r => flt (addError s ⟨5, true, x.die, x.t, x.core, r⟩) { code := 7 }
          | none =>
            if x.co.holdsBack (laneAccess op).1 (laneAccess op).2 then s
            else match body s ⟨x, blk, w⟩ with
            | .done t => finishWord t x blk op w (readCycles s x op w)
            | .wait s => s
            | .fault s f => flt s f

/-- The issue of a lane word by the cohort that executes. -/
def issueL (s : State) (op : Nat) (w : LaneWord) (body : State → LCtx → LRes) : Out :=
  match s.cur with
  | .cohort c => match ctxOf s c with
    | some x => .next (issueLIn s x op w body)
    | none => .fault .noAgent
  | _ => .fault .noAgent

/-- Results written to D in the active lanes. -/
def writeD (s : State) (k : LCtx) (f : Nat → Word) : State :=
  s.onCohort k.x.c (fun co => k.act.foldl (fun co l => co.setV k.w.d.toNat l (f l)) co)

/-- A word that writes D from its sources and raises no flag (R320). -/
def issueInt (s : State) (op : Nat) (w : LaneWord) (f : LCtx → Nat → Word) : Out :=
  issueL s op w (fun s k => .done (writeD s k (f k)))

/-- The flags of a word: F_FP when one is enabled, else FPF gains them (R252, R254). -/
def withFlags (s : State) (k : LCtx) (fl : Sticky) (ok : State → State) : LRes :=
  if fl &&& k.blk.fpe.setWidth 5 != 0 then .fault s { code := 10, lo := fl.setWidth 32 }
  else .done (ok (s.onCohort k.x.c (fun co => { co with fpf := co.fpf ||| fl.setWidth 32 })))

/-- A word that writes D and may raise flags (R252 to R254, R343). -/
def issueFp (s : State) (op : Nat) (w : LaneWord) (f : LCtx → Nat → Nat × Sticky) : Out :=
  issueL s op w (fun s k =>
    let rs := k.act.map (fun l => (l, f k l))
    withFlags s k (rs.foldl (fun fl r => fl ||| r.2.2) 0) (fun s =>
      writeD s k (fun l => match rs.find? (fun r => r.1 == l) with | some r => BitVec.ofNat 32 r.2.1 | none => 0)))

/-- The rounding mode that RSEL names (R246). -/
def LCtx.rmode (k : LCtx) : Nat := if k.w.rsel == 0 then (k.blk.mode.toNat % 4) else k.w.rsel - 1
/-- MODE.FTZ of the block (R250, R253). -/
def LCtx.ftz (k : LCtx) : Bool := k.blk.mode.getLsbD 2

/-! ## Elements (R319) -/

/-- Bits of an element. -/
def tyBits (ty : Nat) : Nat := 32 / tyCount ty
/-- Whether a type is signed. -/
def tySigned (ty : Nat) : Bool := ty == 1 || ty == 6 || ty == 8
/-- Element i of a value, zero-extended. -/
def elem (w x i : Nat) : Nat := x / 2 ^ (w * i) % 2 ^ w
/-- Element i of a value, read by a type. -/
def elemInt (ty x i : Nat) : Int :=
  if tySigned ty then sext (elem (tyBits ty) x i) (tyBits ty) else (elem (tyBits ty) x i : Int)
/-- Elements packed. -/
def packElems (w : Nat) (es : List Nat) : Nat := es.foldr (fun e acc => e % 2 ^ w + 2 ^ w * acc) 0
/-- An element-wise function. -/
def mapElems (ty : Nat) (f : Nat → Nat) : Word := BitVec.ofNat 32 (packElems (tyBits ty) ((List.range (tyCount ty)).map f))
/-- The format of a float type. -/
def tyFmt (ty : Nat) : Fmt := match ty with | 4 => f16 | 5 => bf16 | 10 => e4m3 | 11 => e5m2 | _ => f32
/-- An element-wise function with flags. -/
def mapFlags (ty : Nat) (f : Nat → Nat × Sticky) : Nat × Sticky :=
  let rs := (List.range (tyCount ty)).map f
  (packElems (tyBits ty) (rs.map (·.1)), rs.foldl (fun fl r => fl ||| r.2) 0)

/-! ## Addresses (R364) -/

/-- The address of a lane in a global mode, or its offset (R364). -/
def LCtx.ea (k : LCtx) (sm lane : Nat) : Int :=
  let imm := sext k.w.imm.toNat 32
  if sm == 0 then ((lowBits ((k.src64 k.w.a lane).toNat + imm) 64 : Nat) : Int)
  else if sm ≤ 4 then
    ((lowBits ((k.src64 k.w.b lane).toNat + ((k.a lane).toNat * 2 ^ (sm - 1) : Nat) + imm) 64 : Nat) : Int)
  else (k.a lane).toNat + imm

/-- private_va of R66. -/
def privateVa (x : Ctx) (lane p : Nat) : Nat :=
  (x.l.parena + x.co.priv * x.l.slotSize + 2048 + p / 4 * 128 + lane * 4 + p % 4) % 2 ^ 64

/-- The virtual pieces of a private access of n bytes: address and length (R66). -/
def privatePieces (x : Ctx) (lane p n : Nat) : List (Nat × Nat) :=
  if n ≤ 4 then [(privateVa x lane p, n)] else (List.range (n / 4)).map (fun i => (privateVa x lane (p + 4 * i), 4))

/-- A translated piece of a lane's access: lane, virtual address, translation, length. -/
structure Piece where
  lane : Nat
  va   : Nat
  xl   : Xlat
  n    : Nat

/-- The virtual pieces of a lane's access in a global or private mode (R66, R366): the pieces, or a fault of the private area. Its
F_ADDR comes first, as everywhere (R14); F_ALIGN and F_PROT of the private area record the private offset (assumption 55). -/
def virtualPieces (k : LCtx) (sm lane n align : Nat) : Except AccFault (List (Nat × Nat)) :=
  let a := k.ea sm lane
  if sm == 6 then
    let p := lowBits a 64
    let ps := privatePieces k.x lane p n
    match ps.find? (fun q => decide (2 ^ 60 ≤ q.1)) with
    | some q => .error (faultAt 2 q.1)
    | none =>
      if p % align != 0 then .error (faultAt 3 p)
      else if a < 0 || decide (k.x.l.plane < a.toNat + n) then .error (faultAt 4 p)
      else .ok ps
  else .ok [(a.toNat, n)]

/-- One lane's access checked and translated (R366): its faults, and its pieces. -/
def lanePieces (s : State) (k : LCtx) (sm n align : Nat) (kd : AccessKind) (bad : Xlat → Bool)
    (lane : Nat) : List AccFault × List Piece :=
  match virtualPieces k sm lane n align with
  | .error f => ([f], [])
  | .ok vs => vs.foldr (fun p acc =>
      match checkLimited s k.x.core k.x.t p.1 p.2 (if sm == 6 then 1 else align) kd bad with
      | .ok xl => (acc.1, ⟨lane, p.1, xl, p.2⟩ :: acc.2)
      | .error f => (f :: acc.1, acc.2)) ([], [])

/-- Every active lane's access checked and translated, or the fault of the word (R28, R29). -/
def allPieces (s : State) (k : LCtx) (sm n align : Nat) (kd : AccessKind) (bad : Xlat → Bool) :
    Except AccFault (List Piece) :=
  let rs := k.act.map (lanePieces s k sm n align kd bad)
  match pickFault (rs.flatMap (·.1)) with
  | some f => .error f
  | none => .ok (rs.flatMap (·.2))

end Sys2Proof.Machine
end

