-- ==== Sys2Proof/Machine/Buffers.lean ====
section
/-! DEFINITION. The typed buffers: locked regions, the check of a lane's offset, and writes that race with a matrix
operation (R48 to R57, R128, R395). -/

namespace Sys2Proof.Machine

/-! ## Locked regions (R55) -/

/-- The 4 KiB regions of a range. -/
def regionsOf (off n : Nat) : List Nat :=
  if n == 0 then [] else (List.range ((off + n - 1) / 4096 + 1 - off / 4096)).map (off / 4096 + ·)

/-- Whether a range of CBUF touches a locked region of its group. -/
def regionLocked (s : State) (gid off n : Nat) : Bool :=
  (cohortsOf s gid).any (fun p => p.2.locks.any (fun l => (regionsOf off n).contains l.2))

/-! ## Offsets of lanes -/

/-- The check of one lane's access to a local space: alignment, allocation, and for CBUF the locks (R366, R370). -/
def checkSpace (s : State) (x : Ctx) (k : Nat) (off : Int) (n align : Nat) : Option AccFault :=
  match checkLocal x k off n align with
  | some f => some f
  | none => if k == 3 && regionLocked s x.co.grp off.toNat n then some { code := 8, lo := BitVec.ofNat 32 off.toNat } else none

/-- The fault of a word on a local space, if any lane has one (R28, R29). -/
def spaceFault (s : State) (k : LCtx) (sp n align : Nat) : Option AccFault :=
  pickFault (k.act.filterMap (fun l => checkSpace s k.x sp (k.ea 5 l) n align))

/-! ## Writes that race with the matrix engine (R56) -/

/-- The 64-byte chunks of a range. -/
def chunksOf (off n : Nat) : List Nat :=
  if n == 0 then [] else (List.range ((off + n - 1) / 64 + 1 - off / 64)).map (fun i => (off / 64 + i) * 64)

/-- Every matrix operation of a group changed: in the engine, or held. -/
def onOps (s : State) (gid : Nat) (f : MatOp → MatOp) : State :=
  let mine := (cohortsOf s gid).map (·.1)
  let s := { s with cohorts := s.cohorts.map (fun p =>
    if p.2.grp = gid then (p.1, { p.2 with heldOps := p.2.heldOps.map f }) else p) }
  match lookup s.groups gid with
  | some g => s.onCore g.core (fun C => { C with engine := C.engine.map (fun m => if mine.contains m.c then f m else m) })
  | none => s

/-- Cells that lie in none of some ranges: offset and length. -/
def outside (rs : List (Nat × Nat)) (cs : List Host.Cell) : List Host.Cell :=
  cs.filter (fun c => !rs.any (fun r => decide (r.1 ≤ c.1) && decide (c.1 < r.1 + r.2)))

/-- What is kept of racing writes after later writes of ranges of a space, by another writer where one is named: a byte written
again races no more. -/
def forgetOld (l : List OldBytes) (writer : Option Writer) (sp : Nat) (rs : List (Nat × Nat)) : List OldBytes :=
  (l.map (fun e => if e.space == sp && writer != some e.writer then { e with cells := outside rs e.cells } else e)).filter
    (fun e => !e.cells.isEmpty)

/-- The old bytes of a chunk kept under the writer that is about to write it: those that the writer has not replaced already. -/
def noteChunk (l : List OldBytes) (writer : Writer) (sp : Nat) (p : Nat × List Host.Cell) : List OldBytes :=
  let mine := fun e : OldBytes => e.writer == writer && e.space == sp && e.chunk == p.1 && !e.decided
  match l.find? mine with
  | none => l ++ [⟨writer, sp, p.1, p.2, false⟩]
  | some _ => l.map (fun e => if mine e then
      { e with cells := e.cells ++ p.2.filter (fun c => !e.cells.any (fun d => d.1 == c.1)) } else e)

/-- The bytes that ranges of a space hold, by chunk. -/
def oldChunks (g : Group) (sp : Nat) (rs : List (Nat × Nat)) : List (Nat × List Host.Cell) :=
  let cs := rs.flatMap (fun r => cellsOf r.1 (g.read sp r.1 r.2))
  (dedup (rs.flatMap (fun r => chunksOf r.1 r.2))).map (fun k => (k, cs.filter (fun c => c.1 / 64 * 64 == k)))

/-- An operation keeps the bytes of chunks that it has not read, before they are overwritten. -/
def keepOld (writer : Writer) (sp : Nat) (rs : List (Nat × Nat)) (old : List (Nat × List Host.Cell)) (m : MatOp) : MatOp :=
  let unread := old.filter (fun p => !m.seen.any (fun e => e.1 == sp && e.2.1 == p.1))
  { m with old := unread.foldl (fun l p => noteChunk l writer sp p) (forgetOld m.old (some writer) sp rs) }

/-- What one lane word, a loader or the Planisher writes to WBUF, ABUF or CBUF: offsets and bytes, in order (R56, R141). A lane's write
races until the next MFENCE of the group, and a landing while its command has still to land on the same chunk (R128, R480). -/
def writeBuffer (s : State) (gid : Nat) (writer : Writer) (sp : Nat) (ws : List (Nat × List Byte)) : State :=
  match lookup s.groups gid with
  | none => s
  | some g =>
    let rs := ws.map (fun w => (w.1, w.2.length))
    let old := oldChunks g sp rs
    let s := onOps s gid (keepOld writer sp rs old)
    s.onGroup gid (fun g =>
      let racy := forgetOld g.racy (some writer) sp rs
      let g := { g with racy := old.foldl (fun l p => noteChunk l writer sp p) racy }
      ws.foldl (fun g w => g.write sp w.1 w.2) g)

/-- What one lane word writes to the scratchpad or a buffer, after the cohort's earlier stores have their places in the store order
and its earlier reads their values (R110, R111). -/
def portWrite (s : State) (x : Ctx) (sp : Nat) (ws : List (Nat × List Byte)) : State :=
  let s := settleCtx s x
  if sp == 0 then s.onGroup x.co.grp (fun g => ws.foldl (fun g w => g.write 0 w.1 w.2) g)
  else writeBuffer s x.co.grp (.lanes x.c) sp ws

end Sys2Proof.Machine
end

