-- ==== Sys2Proof/Machine/Fetch.lean ====
section
/-! DEFINITION. Fetching the next instruction of an agent (R63, R144, R168, R271, R273, R278), a clk that passes, and the
moves of the world outside. -/

namespace Sys2Proof.Machine

/-- What a fetch gives. -/
inductive Fetched where
  /-- The agent cannot issue, or its fetch or its decoding faulted: this is the next state. -/
  | stop (s : State)
  | run (s : State) (i : Instr)

/-! ## Code in memory -/

/-- A code word as memory holds it, where it can be fetched. -/
def wordInMem (s : State) (core t va : Nat) : Option Word :=
  match checkAccess s core t va 4 4 .fetch with
  | .error _ => none
  | .ok x => if rangeBad s x.pa 4 || cutOff s x.pa then none else some (BitVec.ofNat 32 (leNat (readMem s x.pa 4)))

/-- A word that the cache holds: where memory has another by now, the whole old word or the whole new one, which is a free value
(R63, R273). -/
def oldOrNew (s : State) (core t va : Nat) (old : Word) : State × Word :=
  match wordInMem s core t va with
  | none => (s, old)
  | some new => if new = old then (s, old) else ((s.drawn).2, if Config.freeChunkNew (s.drawn).1 then new else old)

/-- One 4-byte-aligned code word through the scalar instruction cache of a core (R39, R63), and the state after. -/
def codeWord (s : State) (core t va : Nat) : State × Except AccFault Word :=
  let line := va / 64 * 64
  match (s.core core).sic.find? (fun l => l.t == t && l.va == line) with
  | some l =>
    let r := oldOrNew s core t va (BitVec.ofNat 32 (wordAt l.bytes (va % 64)))
    (r.1, .ok r.2)
  | none =>
    match checkAccess s core t va 4 4 .fetch with
    | .error f => (s, .error f)
    | .ok x =>
      if rangeBad s x.pa 4 then (memError s core t x.pa, .error (faultAt 7 va))
      else if cutOff s x.pa then (s, .error (faultAt 7 va))
      else
        let s := leaves (countMisses s core t [va]) t (x.pa - va % 64) 64 []
        let b := readMem s (x.pa - va % 64) 64
        (s.onCore core (fun C => { C with sic := install Config.sicLines (fun _ => true) C.sic ⟨t, line, b, line⟩ }),
          .ok (BitVec.ofNat 32 (wordAt b (va % 64))))

/-- The virtual address of a scalar word (R280). -/
def codeVa (co : Cohort) (spc : Word) : Nat := co.cb.toNat * 2 ^ 32 + spc.toNat

/-- The words of a scalar instruction after its first: sequential fetch wraps in the 4 GiB region (R280). -/
def moreWords (x : Ctx) : Nat → State → Word → State × Except AccFault (List Word)
  | 0, s, _ => (s, .ok [])
  | n + 1, s, spc =>
    match codeWord s x.core x.t (codeVa x.co spc) with
    | (s, .error f) => (s, .error f)
    | (s, .ok w) => match moreWords x n s (spc + 4) with
      | (s, .error f) => (s, .error f)
      | (s, .ok ws) => (s, .ok (w :: ws))

/-! ### Lane words (R63, R306) -/

/-- The cached lane word at an address. -/
def cachedWord (C : Core) (t va : Nat) : Option CodeLine := C.lic.find? (fun l => l.t == t && l.va == va)

/-- A lane word put into the lane instruction cache. A line that needs a place takes any line's (R39: which is a free value). -/
def putWord (C : Core) (e : CodeLine) : Core :=
  let others := C.lic.filter (fun l => !(l.t == e.t && l.va == e.va))
  let lines := dedup (others.map (fun l => (l.t, l.line)))
  if lines.contains (e.t, e.line) || decide (lines.length < Config.licLines) then { C with lic := others ++ [e] }
  else
    let gone := lines.getD (Config.freePick (lines.map (·.2)) lines.length % lines.length) (0, 0)
    { C with lic := others.filter (fun l => (l.t, l.line) != gone) ++ [e] }

/-- The pieces of a lane word, one for each page, checked for fetch and translated. -/
def wordPieces (s : State) (core t va : Nat) : List ((Nat × Nat) × Except AccFault Xlat) :=
  (pieces va 12).map (fun p => (p, checkAccess s core t p.1 p.2 4 .fetch))

/-- The faults of a lane word's fetch before its bytes are read (R28); AGENT is the lanes (R16, R31). -/
def wordFaults (s : State) (core t va : Nat) : List AccFault :=
  (wordPieces s core t va).filterMap (fun p => match p.2 with | .error f => some { f with agent := some 1 } | .ok _ => none)

/-- The bytes of a lane word in memory, or the address of a piece that holds an error or cannot be reached; none where its pages
fault. -/
def wordBytes? (s : State) (core t va : Nat) : Option (Except (Nat × Nat) (List Byte)) :=
  let ps := (wordPieces s core t va).filterMap (fun p => match p.2 with | .ok x => some (p.1.1, x.pa, p.1.2) | .error _ => none)
  if ps.length != (pieces va 12).length then none
  else match ps.find? (fun p => rangeBad s p.2.1 p.2.2 || cutOff s p.2.1) with
    | some p => some (.error (p.1, p.2.1))
    | none => some (.ok (ps.flatMap (fun p => readMem s p.2.1 p.2.2)))

/-- The words of a line of 16 that can be fetched and are not cached. -/
def missingWords (s : State) (core t line : Nat) : List Nat :=
  ((List.range 16).map (fun i => (line + 12 * i) % 2 ^ 64)).filter (fun va => (cachedWord (s.core core) t va).isNone &&
    (match wordBytes? s core t va with | some (.ok _) => true | _ => false))

/-- The reads of lane words: their pages' misses and walks, and what leaves the module (R447, R452, R454). -/
def wordAsks (s : State) (core t : Nat) (vas : List Nat) : State :=
  vas.foldl (fun s va => (wordPieces s core t va).foldl (fun s p => match p.2 with | .ok x => leaves s t x.pa p.1.2 [] | .error _ => s) s)
    (countMisses s core t (vas.flatMap (fun va => (pieces va 12).map (·.1))))

/-- A line of 16 lane words filled as far as its words can be fetched (R39); words of it that are cached already stay. -/
def fillLine (s : State) (core t line : Nat) : State :=
  (List.range 16).foldl (fun s i =>
    let va := (line + 12 * i) % 2 ^ 64
    if (cachedWord (s.core core) t va).isSome then s
    else match wordBytes? s core t va with
      | some (.ok b) => s.onCore core (fun C => putWord C ⟨t, va, b, line⟩)
      | _ => s) s

/-- The lane word at an address, of the line at another, through the lane instruction cache: the word, or its fault. -/
def laneCode (s : State) (core t line va : Nat) : State × Except (List AccFault) (BitVec 96) :=
  match cachedWord (s.core core) t va with
  | some l => (s, .ok (BitVec.ofNat 96 (leNat l.bytes)))
  | none => match wordFaults s core t va with
    | f :: r => (s, .error (f :: r))
    | [] => match wordBytes? s core t va with
      | some (.ok b) =>
        (fillLine (wordAsks s core t (dedup (va :: missingWords s core t line))) core t line, .ok (BitVec.ofNat 96 (leNat b)))
      | some (.error p) => (memError s core t p.2, .error [faultAt 7 p.1])
      | none => (s, .error [])

/-- The lane words of a block: n from an index on, and the faults of all of them (R28, R30). -/
def blockWords (x : Ctx) : Nat → State → Nat → State × List AccFault × List (BitVec 96)
  | 0, s, _ => (s, [], [])
  | n + 1, s, i =>
    let r := laneCode s x.core x.t ((x.node.lbase + 192 * (i / 16)) % 2 ^ 64) ((x.node.lbase + 12 * i) % 2 ^ 64)
    let rest := blockWords x n r.1 (i + 1)
    match r.2 with
    | .error fs => (rest.1, fs ++ rest.2.1, rest.2.2)
    | .ok w => (rest.1, rest.2.1, w :: rest.2.2)

/-- The next word of a block as it comes up to issue: as LANE fetched it, or, once the cache has lost it, as it is fetched again;
a word that cannot be fetched again is the one that LANE fetched (R63, R170, assumption 6). -/
def nextLaneWord (s : State) (x : Ctx) (blk : LaneBlock) : State × BitVec 96 :=
  let kept := blk.words.getD blk.next 0
  match blk.va with
  | none => (s, kept)
  | some va =>
    let at_ := (va + 12 * blk.next) % 2 ^ 64
    match laneCode s x.core x.t ((va + 12 * blk.next - (va + 12 * blk.next + 2 ^ 64 - x.node.lbase) % 192) % 2 ^ 64) at_ with
    | (s', .ok w) => (s', w)
    | (_, .error _) => (s, kept)

/-- The scalar instruction at a cohort's SPC. -/
def fetchScalar (s : State) (c : Nat) : Fetched :=
  let s := { s with cur := .cohort c }
  match ctxOf s c with
  | none => .stop s
  | some x =>
    if !x.runnable then .stop s
    else if x.co.cont then .stop (continueCohort s x)
    else match moreWords x 1 s x.co.spc with
      | (s, .error f) => .stop (scalarFault s x f)
      | (s, .ok ws) =>
        let w := ws.headD 0
        match moreWords x (scalarWords w - 1) s (x.co.spc + 4) with
        | (s, .error f) => .stop (scalarFault s x f)
        | (s, .ok more) => match decodeScalar (w :: more) with
          | .ok (i, _) => .run s i
          | .error _ => .stop (issueIn s x {} (fun s _ => .fault s { code := 1 }))

/-- The lane word at the head of a cohort's lane queue. -/
def fetchLane (s : State) (c : Nat) : Fetched :=
  let s := { s with cur := .cohort c }
  match ctxOf s c with
  | none => .stop s
  | some x =>
    if !x.laneRunnable then .stop s
    else match x.co.laneQ with
      | [] => .stop s
      | blk :: _ =>
        let r := nextLaneWord s x blk
        match decodeLane r.2 with
        | .ok i => .run r.1 i
        | .error _ => .stop (laneFault r.1 x blk.spc blk.next { code := 1 })

/-! ## Loader and storer -/

/-- The loader (false) or storer of a group. -/
def Group.rv (g : Group) (st : Bool) : RvCore := if st then g.storer else g.loader
/-- It replaced. -/
def Group.setRv (g : Group) (st : Bool) (r : RvCore) : Group := if st then { g with storer := r } else { g with loader := r }

/-- A loader or storer with its group and its launch. -/
structure RvCtx where
  gid : Nat
  st  : Bool
  g   : Group
  l   : Launch
  r   : RvCore

/-- The loader or storer of a resident group. -/
def rvOf (s : State) (gid : Nat) (st : Bool) : Option RvCtx :=
  match lookup s.groups gid with
  | none => none
  | some g => (lookup s.launches g.slot).map (fun l => ⟨gid, st, g, l, g.rv st⟩)

/-- Whether it may execute: it runs, and its group is neither being saved, nor halted, nor ended (R148, R149, R415, R445). -/
def RvCtx.runnable (k : RvCtx) : Bool := k.r.mode == .running && k.g.halt.isNone && k.l.ending.isNone

/-- A change of the core. -/
def onRv (s : State) (k : RvCtx) (f : RvCore → RvCore) : State :=
  s.onGroup k.gid (fun g => g.setRv k.st (f (g.rv k.st)))

/-- The core halts with a fault (R147). When cohort 0 has ended, the fault ends the launch. -/
def rvHalt (s : State) (k : RvCtx) (code : Nat) : State :=
  let s := onRv s k (fun r => { r with mode := .halted, hcode := code, hdlv := false })
  if (cohortsOf s k.gid).any (fun p => p.2.ix == 0 && !p.2.ended) then s
  else endLaunch (onRv s k (fun r => { r with hdlv := true })) k.g.slot 2 code

/-- The instruction at the core's pc (R144, R145). -/
def fetchRv (s : State) (gid : Nat) (st : Bool) : Fetched :=
  let s := { s with cur := .rv gid st }
  match rvOf s gid st with
  | none => .stop s
  | some k =>
    if !k.runnable then .stop s
    else
      let pc := k.r.pc.toNat
      if pc % 2 != 0 then .stop (rvHalt s k 3)
      else if 0x8000 < pc + 2 then .stop (rvHalt s k 4)
      else
        let w := BitVec.ofNat 32 (leNat (bytesAt k.r.imem pc 4))
        if w.toNat % 4 == 3 && decide (0x8000 < pc + 4) then .stop (rvHalt s k 4)
        else match decodeRv w with
          | .ok (i, _) => .run s i
          | .error _ => .stop (rvHalt s k 1)

/-! ## Events, clks and the world outside -/

/-- Whether a row is an event: no agent fetches it. -/
def isEvent (i : Instr) : Bool :=
  match i with
  | .riscvInstruction _ _ | .ecall => false
  | .tld _ _ | .tldt _ _ | .tlds _ _ | .tgath _ _ | .tst _ _ | .tcopy _ _ => false
  | .tbarArrive _ _ | .tbarExpect _ _ _ | .tbarWait _ _ _ | .tbarTest _ _ _ => false
  | .twait _ _ | .tfence | .tstat _ _ | .tres _ _ | .tkill _ _ => false
  | i => (encodeScalar i).isEmpty && (laneParts i).isNone

/-- Whether an event is an access of the host. -/
def hostEvent (i : Instr) : Bool :=
  match i with
  | .txctlWrite _ _ | .txfrtWrite _ _ | .txfresAccept _ _ | .txfresReject _ _ | .txinvAll _ | .txinvRange _ _ | .txinvNone _ _ => true
  | .doorbell _ _ | .queueEnable _ _ | .queueDisable _ _ | .queueRestart _ _ | .qtokClear _ _ | .qtoksSet _ _ | .qirqcArm _ _ => true
  | .launchDestroy _ _ | .traceEnable _ _ | .dbgcmdRead _ _ | .dbgcmdWrite _ _ | .dbgcmdResume _ _ | .dbgcmdHalt _ _ => true
  | .dbgcmdBadCommand _ _ | .dbgrClear _ | .attest _ | .errorRingEnable _ | .hostBar2Access _ _ _ | .pkgctlWrite _ => true
  | .tlbindWrite _ _ | .registerWrite _ _ _ _ => true
  | _ => false

/-- Whether the host sees the device: PCIe is trained in step 4 (R462). -/
def hostUp (s : State) : Bool := decide (4 ≤ s.anvil.step) && s.anvil.fail == 0

/-- Whether an event of the agenda can take place: the module has power, and the host reaches it where the event is the host's. -/
def eventRuns (s : State) (i : Instr) : Bool := isEvent i && s.powered && (!hostEvent i || hostUp s)

/-- Matrix operations after a clk: each one that does not run has waited for it (R399). -/
def waitOn (running : Option Nat) : Nat → List MatOp → List MatOp
  | _, [] => []
  | i, m :: r => (if running == some i then m else { m with since := m.since + 1 }) :: waitOn running (i + 1) r

/-- The cores and tenants with a resident cohort (R447). -/
def residentPairs (s : State) : List (Nat × Nat) :=
  dedup (s.cohorts.filterMap (fun p => match ctxOf s p.1 with
    | some x => if x.co.ended then none else some (x.core, x.t)
    | none => none))

/-- One clk passes (R3, R399, R447): the clock, the waits of matrix operations, and the counters of clks. -/
def clkPasses (s : State) : State :=
  if !s.powered then s
  else
    let counted := s.cohorts.foldl (fun s p =>
      match ctxOf s p.1 with
      | some x => if x.co.ended || x.co.park.isNone then s else countEvent s x.t 5 1
      | none => s) s
    let counted := (residentPairs s).foldl (fun s p => countEvent s p.2 1 1) counted
    let engines := s.cores.foldl (fun s p =>
      match p.2.running.bind (fun k => p.2.engine[k]?) with
      | some m => match ctxOf s m.c with
        | some x => countEvent s x.t 6 1
        | none => s
      | none => s) counted
    { engines with
        clk := s.clk + 1,
        cores := engines.cores.map (fun p => (p.1, { p.2 with engine := waitOn p.2.running 0 p.2.engine })) }

/-- The host or another package writes its own memory. -/
def worldWrites (s : State) (pa : Nat) (b : List Byte) : State :=
  let cs := (cellsOf pa b).filter (fun c => decide (placeOf s c.1 ≠ .hbm))
  { s with mem := writeCells s.mem cs }

/-- Reads of a line outside the module's own memory end with an error, or no longer (R454, R455). -/
def portErrors (s : State) (pa : Nat) (on : Bool) : State :=
  if placeOf s pa = .hbm then s
  else { s with badLines := s.badLines.filter (· != pa / 64) ++ (if on then [pa / 64] else []) }

/-- A core gives up what its caches hold (R34, R40, R63): which entries they replace is theirs. -/
def coreEvicts (s : State) (core : Nat) : State :=
  s.onCore core (fun C => { C with tlb := [], l1d := [], sic := [], lic := [] })

/-- The boot flash and the fuses of a module, as made (R461, R462). -/
def manufactured (s : State) (flash : List (Nat × List Byte)) (kh : BitVec 512) (mv : SMap Nat) (sec : List Byte) : State :=
  { s with anvil := { s.anvil with flash := flash, keyHash := kh, minVer := mv, secret := sec } }

/-! ## An instruction placed for the next fetch -/

/-- The node descriptor of the placed instruction's node: 256 vector registers, SGAP 65,535, a scratchpad. -/
def placedNode : NodeCopy :=
  ⟨BitVec.ofNat 1024 (31 * 2 ^ 671 + 31 * 2 ^ 676 + 256 * 2 ^ 640 + 65535 * 2 ^ 544), [], [], [], 0⟩

/-- The state with a launch, a group and a cohort to run the placed instruction. -/
def placedCohort (s : State) (co : Cohort) (g : Group) : State :=
  { s with launches := store s.launches 0 { t := 0, desc := 0, nodes := [placedNode] },
           groups := store s.groups 0 g, cohorts := store s.cohorts 0 co }

/-- A scalar instruction at the SPC of cohort 0. -/
def placeScalar (s : State) (w : Nat) : State :=
  let s := placedCohort s { grp := 0, ix := 0, nv := 256 } { slot := 0, node := 0, core := 0 }
  let s := s.onCore 0 (fun C => { C with sic := [], tlb := ⟨0, 0, 16, 0, 0x1F, true⟩ :: C.tlb.filter (fun e => !e.hits 0 0) })
  { s with mem := writeCells s.mem (cellsOf 0 (leBytes 260 w)), badLines := s.badLines.filter (fun l => decide (4 < l)),
           agenda := [.scalar 0] }

/-- A lane word at the head of cohort 0's lane queue. -/
def placeLane (s : State) (w : Nat) : State :=
  let blk : LaneBlock := { words := [BitVec.ofNat 96 w], mask := 0xFFFFFFFF, window := List.replicate 16 0, mode := 0, fpe := 0, spc := 0, marks := [] }
  { placedCohort s { grp := 0, ix := 0, nv := 256, laneQ := [blk] } { slot := 0, node := 0, core := 0 } with agenda := [.lane 0] }

/-- A word at the pc of the loader, or of the storer where only that may issue it. -/
def placeRv (s : State) (st : Bool) (w : Nat) : State :=
  let r : RvCore := { mode := .running, imem := writeCells [] (cellsOf 0 (leBytes 4 w)) }
  { placedCohort s { grp := 0, ix := 0, nv := 256 }
      (({ slot := 0, node := 0, core := 0 } : Group).setRv st r) with agenda := [.rv 0 st] }

/-- Whether a decoded instruction is of a loader or storer, and whether only the storer may issue it. -/
def rvPlace (i : Instr) : Option Bool :=
  match i with
  | .tst _ _ => some true
  | i => if isEvent i || !(encodeScalar i).isEmpty || (laneParts i).isSome then none else some false

/-- An instruction of the table placed where the next step fetches it. -/
def placeWord (s : State) (nbits w : Nat) : State :=
  if 64 < nbits then placeLane s w
  else if nbits ≤ 16 then placeRv s false w
  else match (decodeTableWord nbits w).bind rvPlace with
    | some st => placeRv s st w
    | none => placeScalar s w

end Sys2Proof.Machine
end

