-- ==== Sys2Proof/Machine/LoaderCore.lean ====
section
/-! DEFINITION. The RV64IMAC instructions, with Zicsr, Zba and Zbb, of the loader and storer cores (R144 to R151). -/

namespace Sys2Proof.Machine

/-! ## Issue -/

/-- What the body of a loader or storer instruction answers. -/
inductive RvRes where
  | done (s : State) (pc : Dword)
  /-- The core waits: the instruction executes again later. -/
  | wait (s : State)
  /-- The core halts with a fault (R147). -/
  | halt (s : State) (code : Nat)

/-- The issue of an instruction by the loader or storer that executes. -/
def issueRv (s : State) (body : State → RvCtx → RvRes) : Out :=
  match s.cur with
  | .rv gid st => match rvOf s gid st with
    | none => .fault .noAgent
    | some k =>
      if !k.runnable then .next s
      else match body s k with
        | .done s pc => .next (onRv s k (fun r => { r with pc := pc, instret := r.instret + 1 }))
        | .wait s => .next s
        | .halt s code => .next (rvHalt s k code)
  | _ => .fault .noAgent

/-- x[n], x0 = 0. -/
def RvCore.xreg (r : RvCore) (n : XReg) : Dword := if n == 0 then 0 else get 0 r.x n.toNat
/-- x[n] written; a write to x0 is discarded. -/
def RvCore.setX (r : RvCore) (n : XReg) (v : Dword) : RvCore := if n == 0 then r else { r with x := put 0 r.x n.toNat v }
/-- The address of the next instruction. -/
def RvCtx.nextPc (k : RvCtx) (short : Bool) : Dword := k.r.pc + (if short then 2 else 4)
/-- An instruction that writes rd and goes on. -/
def rvWrite (s : State) (k : RvCtx) (short : Bool) (rd : XReg) (v : Dword) : RvRes :=
  .done (onRv s k (fun r => r.setX rd v)) (k.nextPc short)

/-! ## Arithmetic -/

/-- A 32-bit result, sign-extended. -/
def sx32 (x : BitVec 32) : Dword := x.signExtend 64
/-- The low word. -/
def low32 (x : Dword) : BitVec 32 := x.setWidth 32

/-- Signed division as RISC-V gives it: by zero -1, and the overflow wraps. -/
def rvDivS {w : Nat} (a b : BitVec w) : BitVec w := if b == 0 then BitVec.ofInt w (-1) else BitVec.ofInt w (Int.tdiv a.toInt b.toInt)
/-- Signed remainder: by zero the dividend. -/
def rvRemS {w : Nat} (a b : BitVec w) : BitVec w := if b == 0 then a else BitVec.ofInt w (Int.tmod a.toInt b.toInt)
/-- Unsigned division: by zero all ones. -/
def rvDivU {w : Nat} (a b : BitVec w) : BitVec w := if b == 0 then BitVec.ofInt w (-1) else BitVec.ofNat w (a.toNat / b.toNat)
/-- Unsigned remainder: by zero the dividend. -/
def rvRemU {w : Nat} (a b : BitVec w) : BitVec w := if b == 0 then a else BitVec.ofNat w (a.toNat % b.toNat)
/-- A shift right that fills with the sign. -/
def rvSra {w : Nat} (a : BitVec w) (n : Nat) : BitVec w := BitVec.ofInt w (a.toInt / (2 ^ n : Nat))
/-- 1 or 0. -/
def rvBit (b : Bool) : Dword := if b then 1 else 0

/-- A register operation. -/
def rvAlu (op : RvAlu) (a b : Dword) : Dword :=
  let n := b.toNat % 64
  let m := b.toNat % 32
  let aw := low32 a
  let bw := low32 b
  match op with
  | .add => a + b
  | .sub => a - b
  | .sll => a <<< n
  | .slt => rvBit (decide (a.toInt < b.toInt))
  | .sltu => rvBit (decide (a.toNat < b.toNat))
  | .xor => a ^^^ b
  | .srl => a >>> n
  | .sra => rvSra a n
  | .or => a ||| b
  | .and => a &&& b
  | .addw => sx32 (aw + bw)
  | .subw => sx32 (aw - bw)
  | .sllw => sx32 (aw <<< m)
  | .srlw => sx32 (aw >>> m)
  | .sraw => sx32 (rvSra aw m)
  | .mul => a * b
  | .mulh => BitVec.ofInt 64 (a.toInt * b.toInt / (2 ^ 64 : Nat))
  | .mulhsu => BitVec.ofInt 64 (a.toInt * (b.toNat : Int) / (2 ^ 64 : Nat))
  | .mulhu => BitVec.ofNat 64 (a.toNat * b.toNat / 2 ^ 64)
  | .div => rvDivS a b
  | .divu => rvDivU a b
  | .rem => rvRemS a b
  | .remu => rvRemU a b
  | .mulw => sx32 (aw * bw)
  | .divw => sx32 (rvDivS aw bw)
  | .divuw => sx32 (rvDivU aw bw)
  | .remw => sx32 (rvRemS aw bw)
  | .remuw => sx32 (rvRemU aw bw)
  | .adduw => aw.setWidth 64 + b
  | .sh1add => (a <<< 1) + b
  | .sh2add => (a <<< 2) + b
  | .sh3add => (a <<< 3) + b
  | .sh1adduw => (aw.setWidth 64 <<< 1) + b
  | .sh2adduw => (aw.setWidth 64 <<< 2) + b
  | .sh3adduw => (aw.setWidth 64 <<< 3) + b
  | .andn => a &&& ~~~b
  | .orn => a ||| ~~~b
  | .xnor => ~~~(a ^^^ b)
  | .min => if a.toInt ≤ b.toInt then a else b
  | .minu => if a.toNat ≤ b.toNat then a else b
  | .max => if a.toInt ≤ b.toInt then b else a
  | .maxu => if a.toNat ≤ b.toNat then b else a
  | .rol => a.rotateLeft n
  | .ror => a.rotateRight n
  | .rolw => sx32 (aw.rotateLeft m)
  | .rorw => sx32 (aw.rotateRight m)

/-- An operation with a 12-bit immediate. -/
def rvImmOp (op : RvImm) (a i : Dword) : Dword :=
  match op with
  | .addi => a + i
  | .slti => rvBit (decide (a.toInt < i.toInt))
  | .sltiu => rvBit (decide (a.toNat < i.toNat))
  | .xori => a ^^^ i
  | .ori => a ||| i
  | .andi => a &&& i
  | .addiw => sx32 (low32 (a + i))

/-- A shift or rotation by an immediate. -/
def rvShiftOp (op : RvShift) (a : Dword) (sh : Nat) : Dword :=
  let aw := low32 a
  match op with
  | .slli => a <<< sh
  | .srli => a >>> sh
  | .srai => rvSra a sh
  | .slliw => sx32 (aw <<< sh)
  | .srliw => sx32 (aw >>> sh)
  | .sraiw => sx32 (rvSra aw sh)
  | .rori => a.rotateRight sh
  | .roriw => sx32 (aw.rotateRight sh)
  | .slliuw => aw.setWidth 64 <<< sh

/-- The number of 1 bits, leading and trailing zeros of the low w bits. -/
def rvOnes (w x : Nat) : Nat := ((List.range w).filter (bitOf x)).length
def rvLead (w x : Nat) : Nat := if x % 2 ^ w = 0 then w else w - 1 - Nat.log2 (x % 2 ^ w)
def rvTrail (w x : Nat) : Nat := ((List.range w).find? (bitOf x)).getD w

/-- An operation of one source. -/
def rvUnary (op : RvUnary) (a : Dword) : Dword :=
  let x := a.toNat
  match op with
  | .clz => BitVec.ofNat 64 (rvLead 64 x)
  | .ctz => BitVec.ofNat 64 (rvTrail 64 x)
  | .cpop => BitVec.ofNat 64 (rvOnes 64 x)
  | .clzw => BitVec.ofNat 64 (rvLead 32 x)
  | .ctzw => BitVec.ofNat 64 (rvTrail 32 x)
  | .cpopw => BitVec.ofNat 64 (rvOnes 32 x)
  | .sextb => (a.setWidth 8).signExtend 64
  | .sexth => (a.setWidth 16).signExtend 64
  | .zexth => (a.setWidth 16).setWidth 64
  | .orcb => BitVec.ofNat 64 (leNat ((leBytes 8 x).map (fun b => if b == 0 then 0 else 0xFF)))
  | .rev8 => BitVec.ofNat 64 (leNat (leBytes 8 x).reverse)

/-- Whether a branch is taken. -/
def rvTaken (op : RvBranch) (a b : Dword) : Bool :=
  match op with
  | .beq => a == b
  | .bne => a != b
  | .blt => decide (a.toInt < b.toInt)
  | .bge => decide (b.toInt ≤ a.toInt)
  | .bltu => decide (a.toNat < b.toNat)
  | .bgeu => decide (b.toNat ≤ a.toNat)

/-! ## Memory (R145) -/

/-- Bytes of a width. -/
def rvBytes (wd : RvWidth) : Nat := match wd with | .b => 1 | .h => 2 | .w => 4 | .d => 8

/-- The fault of an access of n bytes: alignment, then the ranges and permissions of R145; where both fail R147 names no order
(assumption 61). -/
def rvFault (a n : Nat) (wr : Bool) : Option Nat :=
  if a % n != 0 then some 3
  else if decide (0x10000 ≤ a) && decide (a + n ≤ 0x14000) then none
  else if !wr && decide (a + n ≤ 0x8000) then none
  else some 4

/-- n bytes of the core's address space. -/
def RvCore.readBytes (r : RvCore) (a n : Nat) : List Byte :=
  if 0x10000 ≤ a then bytesAt r.dram (a - 0x10000) n else bytesAt r.imem a n

/-- Bytes written to the data RAM. -/
def RvCore.writeRam (r : RvCore) (a : Nat) (b : List Byte) : RvCore :=
  { r with dram := writeCells r.dram (cellsOf (a - 0x10000) b) }

/-- A loaded value, extended. -/
def rvExtend (wd : RvWidth) (uns : Bool) (b : List Byte) : Dword :=
  if uns then BitVec.ofNat 64 (leNat b) else BitVec.ofInt 64 (sext (leNat b) (8 * rvBytes wd))

/-- What an AMO stores. -/
def rvAmoOp (op : RvAmo) (n old x : Nat) : Nat :=
  match op with
  | .swap => x
  | .add => (old + x) % 2 ^ n
  | .xor => old ^^^ x
  | .and => old &&& x
  | .or => old ||| x
  | .min => if sext old n ≤ sext x n then old else x
  | .max => if sext old n ≤ sext x n then x else old
  | .minu => min old x
  | .maxu => max old x

/-! ## Control and status registers (R151) -/

/-- Row j of a command is complete. -/
def TileCmd.rowComplete (c : TileCmd) (j : Nat) : Bool :=
  decide (j < c.rowdone) || c.doneRows.contains j || (c.hinc != 0 && decide (c.hinc ≤ j))

/-- The number of rows of a command. -/
def TileCmd.nrows (c : TileCmd) : Nat := bitsOf c.desc.toNat 287 272 + 1

/-- rowmap (R151). -/
def TileCmd.rowmap (c : TileCmd) : Dword :=
  BitVec.ofNat 64 (packElems 1 ((List.range 64).map (fun j =>
    if decide (c.rowdone + j < c.nrows) && c.rowComplete (c.rowdone + j) then 1 else 0)))

/-- The status word of a command in a slot (R163). -/
def TileCmd.status (c : TileCmd) (slot : Nat) : Dword :=
  BitVec.ofNat 64 (c.st * 2 ^ 62 + c.flags.toNat * 2 ^ 57 + slot * 2 ^ 54 + c.fcode * 2 ^ 46 + c.hinc * 2 ^ 17 + c.rowdone)

/-- The identity of a loader or storer core (R151). -/
def RvCtx.tqid (k : RvCtx) : Nat := k.g.core / 128 * 2 ^ 9 + k.g.core % 128 * 4 + (if k.st then 1 else 0)

/-- A CSR's value; none for a number that R151 does not list. -/
def csrRead (s : State) (k : RvCtx) (num : Nat) : Option Dword :=
  let slot := k.r.rowsel.toNat
  let shown := fun f : TileCmd → Dword => match lookup k.r.slots slot with | some c => f c | none => 0
  match num with
  | 0xC00 => some (BitVec.ofNat 64 (s.clk - k.r.cyc0))
  | 0xC02 => some k.r.instret
  | 0xF14 => some (BitVec.ofNat 64 k.tqid)
  | 0x7C0 => some k.r.rowsel
  | 0xFC0 => some (BitVec.ofNat 64 k.tqid)
  | 0xFC1 => some (BitVec.ofNat 64 (8 - k.r.slots.length))
  | 0xFC2 => some k.r.tqtick
  | 0xFC3 => some (shown (fun c => c.status slot))
  | 0xFC4 => some (shown (fun c => BitVec.ofNat 64 c.rowdone))
  | 0xFC5 => some (shown TileCmd.rowmap)
  | 0xFC6 => some (shown TileCmd.tqva)
  | _ => none

/-- An access to a CSR: only rowsel may be written (R144, R151). -/
def csrOp (s : State) (k : RvCtx) (short : Bool) (op : RvCsr) (useImm : Bool) (rd rs1 : XReg) (num : BitVec 12) : RvRes :=
  let src := if useImm then rs1.setWidth 64 else k.r.xreg rs1
  let writes := op == .rw || rs1 != 0
  match csrRead s k num.toNat with
  | none => .halt s 1
  | some old =>
    if !writes then rvWrite s k short rd old
    else if num.toNat != 0x7C0 then .halt s 1
    else
      let v := match op with
        | .rw => src
        | .rs => old ||| src
        | .rc => old &&& ~~~src
      rvWrite (onRv s k (fun r => { r with rowsel := v &&& 7 })) k short rd old

/-! ## Meanings -/

/-- The body of an instruction (R144). -/
def rvBody (op : RvOp) (short : Bool) (s : State) (k : RvCtx) : RvRes :=
  let x := k.r.xreg
  let put := rvWrite s k short
  match op with
  | .lui rd imm => put rd (sx32 (imm ++ (0 : BitVec 12)))
  | .auipc rd imm => put rd (k.r.pc + sx32 (imm ++ (0 : BitVec 12)))
  | .jal rd off =>
    .done (onRv s k (fun r => r.setX rd (k.nextPc short))) (k.r.pc + off.signExtend 64 * 2)
  | .jalr rd rs1 imm =>
    .done (onRv s k (fun r => r.setX rd (k.nextPc short))) ((x rs1 + imm.signExtend 64) &&& ~~~1)
  | .branch op rs1 rs2 off =>
    .done s (if rvTaken op (x rs1) (x rs2) then k.r.pc + off.signExtend 64 * 2 else k.nextPc short)
  | .load wd uns rd rs1 imm =>
    let a := (x rs1 + imm.signExtend 64).toNat
    match rvFault a (rvBytes wd) false with
    | some f => .halt s f
    | none => put rd (rvExtend wd uns (k.r.readBytes a (rvBytes wd)))
  | .store wd rs1 rs2 imm =>
    let a := (x rs1 + imm.signExtend 64).toNat
    match rvFault a (rvBytes wd) true with
    | some f => .halt s f
    | none => .done (onRv s k (fun r => r.writeRam a (leBytes (rvBytes wd) (x rs2).toNat))) (k.nextPc short)
  | .alu op rd rs1 rs2 => put rd (rvAlu op (x rs1) (x rs2))
  | .imm op rd rs1 imm => put rd (rvImmOp op (x rs1) (imm.signExtend 64))
  | .shift op rd rs1 sh => put rd (rvShiftOp op (x rs1) sh.toNat)
  | .unary op rd rs1 => put rd (rvUnary op (x rs1))
  | .lr dbl _ rd rs1 =>
    let n := if dbl then 8 else 4
    let a := (x rs1).toNat
    match rvFault a n true with
    | some f => .halt s f
    | none =>
      let v := BitVec.ofInt 64 (sext (leNat (k.r.readBytes a n)) (8 * n))
      rvWrite (onRv s k (fun r => { r with lr := some (a, n) })) k short rd v
  | .sc dbl _ rd rs1 rs2 =>
    let n := if dbl then 8 else 4
    let a := (x rs1).toNat
    match rvFault a n true with
    | some f => .halt s f
    | none =>
      let ok := k.r.lr == some (a, n)
      let s := onRv s k (fun r =>
        let r := { r with lr := none }
        if ok then r.writeRam a (leBytes n (x rs2).toNat) else r)
      rvWrite s k short rd (rvBit (!ok))
  | .amo op dbl _ rd rs1 rs2 =>
    let n := if dbl then 8 else 4
    let a := (x rs1).toNat
    match rvFault a n true with
    | some f => .halt s f
    | none =>
      let old := leNat (k.r.readBytes a n)
      let s := onRv s k (fun r => r.writeRam a (leBytes n (rvAmoOp op (8 * n) old ((x rs2).toNat % 2 ^ (8 * n)))))
      rvWrite s k short rd (BitVec.ofInt 64 (sext old (8 * n)))
  | .csr op useImm rd rs1 num => csrOp s k short op useImm rd rs1 num
  | .fence _ _ _ _ _ => .done s (k.nextPc short)
  | .wfi => .done s (k.nextPc short)

/-- RISCV_INSTRUCTION (R144). -/
def execRiscvInstruction (op : RvOp) (short : Bool) (s : State) : Out := issueRv s (rvBody op short)

end Sys2Proof.Machine
end

