-- ==== Sys2Proof/Machine/ScalarAlu.lean ====
section
/-! DEFINITION. The scalar integer instructions (R292, R293). -/

namespace Sys2Proof.Machine

/-! ## What they compute -/

/-- 1 or 0. -/
def truth (b : Bool) : Word := if b then 1 else 0
/-- The shift that bits [4:0] of a word name. -/
def shiftOf (b : Word) : Nat := b.toNat % 32
/-- The number of 1 bits. -/
def popCount (w x : Nat) : Nat := ((List.range w).filter (bitOf x)).length
/-- Leading zero bits of a number of w bits. -/
def leadZeros (w x : Nat) : Nat := if x % 2 ^ w = 0 then w else w - 1 - Nat.log2 (x % 2 ^ w)
/-- Trailing zero bits of a number of w bits. -/
def trailZeros (w x : Nat) : Nat := ((List.range w).find? (bitOf x)).getD w
/-- BFE of R292: pos is bits [4:0] of b, len bits [10:5], at most 32. -/
def extractField (a b : Nat) : Nat := a / 2 ^ (b % 32) % 2 ^ min (b / 32 % 64) 32
/-- An arithmetic right shift. -/
def shiftArith (a : Word) (k : Nat) : Word := BitVec.ofInt 32 (a.toInt / (2 ^ k : Nat))

/-- A register form of two sources (R292). -/
def aluRR (s : State) (d a b : SReg) (f : Word → Word → Word) : Out :=
  issueReg s [a, b] d (fun co => f (co.reg a.toNat) (co.reg b.toNat))

/-- A register form of one source (R292). -/
def aluR (s : State) (d a : SReg) (f : Word → Word) : Out := issueReg s [a] d (fun co => f (co.reg a.toNat))

/-- A form of pairs: the result of one 64-bit operation (R292, R293). -/
def aluPair (s : State) (d : SReg) (srcs : List SReg) (f : Cohort → Dword) : Out :=
  issueS s { regs := pairRegs d ++ srcs.flatMap pairRegs, reads := srcs.flatMap pairRegs } (fun s x =>
    .done (s.onCohort x.c (fun co => co.setPair d.toNat (f x.co))) .seq)

/-! ## Meanings -/

/-- ADD (R292). -/
def execAdd (d a b : SReg) (s : State) : Out := aluRR s d a b (fun a b => a + b)

/-- SUB (R292). -/
def execSub (d a b : SReg) (s : State) : Out := aluRR s d a b (fun a b => a - b)

/-- MUL (R292). -/
def execMul (d a b : SReg) (s : State) : Out := aluRR s d a b (fun a b => a * b)

/-- MULH.I32 (R292). -/
def execMulhI32 (d a b : SReg) (s : State) : Out := aluRR s d a b (fun a b => BitVec.ofInt 32 (a.toInt * b.toInt / (2 ^ 32 : Nat)))

/-- MULH.N32 (R292). -/
def execMulhN32 (d a b : SReg) (s : State) : Out := aluRR s d a b (fun a b => BitVec.ofNat 32 (a.toNat * b.toNat / 2 ^ 32))

/-- AND (R292). -/
def execAnd (d a b : SReg) (s : State) : Out := aluRR s d a b (fun a b => a &&& b)

/-- OR (R292). -/
def execOr (d a b : SReg) (s : State) : Out := aluRR s d a b (fun a b => a ||| b)

/-- XOR (R292). -/
def execXor (d a b : SReg) (s : State) : Out := aluRR s d a b (fun a b => a ^^^ b)

/-- ANDN (R292). -/
def execAndn (d a b : SReg) (s : State) : Out := aluRR s d a b (fun a b => a &&& ~~~b)

/-- SHL (R292). -/
def execShl (d a b : SReg) (s : State) : Out := aluRR s d a b (fun a b => a <<< shiftOf b)

/-- SHR (R292). -/
def execShr (d a b : SReg) (s : State) : Out := aluRR s d a b (fun a b => a >>> shiftOf b)

/-- SRA (R292). -/
def execSra (d a b : SReg) (s : State) : Out := aluRR s d a b (fun a b => shiftArith a (shiftOf b))

/-- MIN.I32 (R292). -/
def execMinI32 (d a b : SReg) (s : State) : Out := aluRR s d a b (fun a b => if a.toInt ≤ b.toInt then a else b)

/-- MIN.N32 (R292). -/
def execMinN32 (d a b : SReg) (s : State) : Out := aluRR s d a b (fun a b => if a.toNat ≤ b.toNat then a else b)

/-- MAX.I32 (R292). -/
def execMaxI32 (d a b : SReg) (s : State) : Out := aluRR s d a b (fun a b => if a.toInt ≤ b.toInt then b else a)

/-- MAX.N32 (R292). -/
def execMaxN32 (d a b : SReg) (s : State) : Out := aluRR s d a b (fun a b => if a.toNat ≤ b.toNat then b else a)

/-- SLT.I32 (R292). -/
def execSltI32 (d a b : SReg) (s : State) : Out := aluRR s d a b (fun a b => truth (decide (a.toInt < b.toInt)))

/-- SLT.N32 (R292). -/
def execSltN32 (d a b : SReg) (s : State) : Out := aluRR s d a b (fun a b => truth (decide (a.toNat < b.toNat)))

/-- SEQ (R292). -/
def execSeq (d a b : SReg) (s : State) : Out := aluRR s d a b (fun a b => truth (a == b))

/-- BFE (R292). -/
def execBfe (d a b : SReg) (s : State) : Out := aluRR s d a b (fun a b => BitVec.ofNat 32 (extractField a.toNat b.toNat))

/-- SEL (R292): a when the old d is not 0, else b. -/
def execSel (d a b : SReg) (s : State) : Out :=
  issueReg s [d, a, b] d (fun co => if co.reg d.toNat != 0 then co.reg a.toNat else co.reg b.toNat)

/-- POPC (R292). -/
def execPopc (d a : SReg) (s : State) : Out := aluR s d a (fun a => BitVec.ofNat 32 (popCount 32 a.toNat))

/-- CLZ (R292). -/
def execClz (d a : SReg) (s : State) : Out := aluR s d a (fun a => BitVec.ofNat 32 (leadZeros 32 a.toNat))

/-- CTZ (R292). -/
def execCtz (d a : SReg) (s : State) : Out := aluR s d a (fun a => BitVec.ofNat 32 (trailZeros 32 a.toNat))

/-- ADD64 (R292). -/
def execAdd64 (d a b : SReg) (s : State) : Out :=
  aluPair s d [a, b] (fun co => co.pair a.toNat + co.pair b.toNat)

/-- SUB64 (R292). -/
def execSub64 (d a b : SReg) (s : State) : Out :=
  aluPair s d [a, b] (fun co => co.pair a.toNat - co.pair b.toNat)

/-- ADDI (R293). -/
def execAddi (d a : SReg) (imm : BitVec 13) (s : State) : Out := aluR s d a (fun a => a + imm.signExtend 32)

/-- ANDI (R293). -/
def execAndi (d a : SReg) (imm : BitVec 13) (s : State) : Out := aluR s d a (fun a => a &&& imm.signExtend 32)

/-- ORI (R293). -/
def execOri (d a : SReg) (imm : BitVec 13) (s : State) : Out := aluR s d a (fun a => a ||| imm.signExtend 32)

/-- XORI (R293). -/
def execXori (d a : SReg) (imm : BitVec 13) (s : State) : Out := aluR s d a (fun a => a ^^^ imm.signExtend 32)

/-- SLTI (R293). -/
def execSlti (d a : SReg) (imm : BitVec 13) (s : State) : Out := aluR s d a (fun a => truth (decide (a.toInt < imm.toInt)))

/-- SEQI (R293). -/
def execSeqi (d a : SReg) (imm : BitVec 13) (s : State) : Out := aluR s d a (fun a => truth (a == imm.signExtend 32))

/-- MULI (R293). -/
def execMuli (d a : SReg) (imm : BitVec 13) (s : State) : Out := aluR s d a (fun a => a * imm.signExtend 32)

/-- SHLI (R293). -/
def execShli (d a : SReg) (sh : BitVec 5) (s : State) : Out := aluR s d a (fun a => a <<< sh.toNat)

/-- SHRI (R293). -/
def execShri (d a : SReg) (sh : BitVec 5) (s : State) : Out := aluR s d a (fun a => a >>> sh.toNat)

/-- SRAI (R293). -/
def execSrai (d a : SReg) (sh : BitVec 5) (s : State) : Out := aluR s d a (fun a => shiftArith a sh.toNat)

/-- LI (R293). -/
def execLi (d : SReg) (imm : BitVec 13) (s : State) : Out := issueReg s [] d (fun _ => imm.signExtend 32)

/-- LIX (R293): the extension word. -/
def execLix (d : SReg) (ext : Word) (s : State) : Out := issueReg s [] d (fun _ => ext) 2

/-- ADDIX (R293). -/
def execAddix (d a : SReg) (ext : Word) (s : State) : Out := issueReg s [a] d (fun co => co.reg a.toNat + ext) 2

/-- ADDA (R293). -/
def execAdda (d a : SReg) (imm : BitVec 13) (s : State) : Out :=
  aluPair s d [a] (fun co => co.pair a.toNat + imm.signExtend 64)

end Sys2Proof.Machine
end

