-- ==== Sys2Proof/Machine/ScalarControl.lean ====
section
/-! DEFINITION. The SYS instructions, control flow, lane blocks, barrier objects, safe points, regions and traps of the
scalar stream (R286 to R291, R299 to R306, R311 to R318). -/

namespace Sys2Proof.Machine

/-! ## The end of cohorts and groups -/

/-- Whether every batch of a cohort has completed. -/
def Cohort.batchesDone (co : Cohort) : Bool := co.lcom == co.lcpl && co.openOps == 0 && co.heldOps.isEmpty

/-- A group without cohorts, commands and batches ends: its allocations and registers are freed (R58, R148, R288). -/
def groupEnds (s : State) (gid : Nat) : State :=
  match lookup s.groups gid with
  | none => s
  | some g =>
    if g.loader.mode == .ended && g.storer.mode == .ended && (cohortsOf s gid).all (fun p => p.2.ended && p.2.batchesDone) then
      { s with groups := erase s.groups gid, cohorts := s.cohorts.filter (fun p => p.2.grp != gid) }
    else s

/-- A cohort ends (R46, R65, R288, R394). -/
def endCohort (s : State) (x : Ctx) : State :=
  let s := latchDrop s x.core x.c
  let s := s.onLaunch x.slot (fun l => { l with privUsed := l.privUsed.filter (· != x.co.priv) })
  let s := s.onCohort x.c (fun co => { co with ended := true, handler := false })
  let s := match x.co.frep with
    | some f => endLaunch s x.slot 2 f.2.1
    | none => s
  groupEnds s x.co.grp

/-! ## SYS -/

/-- NOP (R287). -/
def execNop (s : State) : Out := issueS s {} (fun s _ => .done s .seq)

/-- YIELD (R287): the cohort is the youngest of its class. -/
def execYield (s : State) : Out :=
  issueS s {} (fun s x => .done (s.onCohort x.c (fun co => { co with age := s.clk })) .seq)

/-- Whether a halted group stops this cohort here (R444). -/
def haltsHere (x : Ctx) : Bool := x.g.halt.isSome && !x.co.handler && x.co.stub.isNone

/-- The cohort halts before the instruction (R444). -/
def haltCohort (s : State) (x : Ctx) : SRes := .wait (s.onCohort x.c (fun co => { co with halted := true }))

/-- DONE (R288). -/
def execDone (s : State) : Out :=
  issueS s { join := true } (fun s x =>
    if haltsHere x then haltCohort s x
    else if !x.co.heldOps.isEmpty then .fault s { code := 1 }
    else if !x.co.pend.isEmpty then .wait s
    else if x.co.openOps = 0 then .done (endCohort s x) .seq
    else if 8 ≤ (x.co.lcom - x.co.lcpl).toNat then .wait s
    else .done (endCohort (s.onCohort x.c (fun co => { co with lcom := co.lcom + 1, openOps := 0 })) x) .seq)

/-- TRET (R291, R426): it writes s48 to s63, and so waits for results on their way to them (R281). -/
def execTret (s : State) : Out :=
  issueS s { regs := (List.range 16).map (48 + ·), join := true } (fun s x =>
    if !x.co.handler then .fault s { code := 1 }
    else
      let cb := BitVec.ofNat 28 (x.node.ep x.co.role / 2 ^ 32)
      let back := fun co : Cohort =>
        let co := (List.range 16).foldl (fun co i => co.setReg (48 + i) (x.co.shadow.getD i 0)) co
        { co with cb := cb, handler := false, waitS := 0, liftS := false }.restoreAnchor
      let x' := { x with co := back x.co }
      match continueAt (s.onCohort x.c back) x' with
      | .error f => .fault s f
      | .ok s' => .wait (countEvent s' x.t 2 1))

/-- FENCE (R116, R290): REL below .DIE leaves the cohort's stores in its queue, which keeps them before every later one (R137). -/
def execFence (scope kind : BitVec 6) (s : State) : Out :=
  issueS s { join := true } (fun s x =>
    if kind != 2 && !x.co.pend.isEmpty then .wait s
    else
      match (if kind == 1 then some s else release s x.core x.t x.c scope.toNat (kind == 2)) with
      | none => .wait s
      | some s => .done (if kind == 2 then s else acquire s x.core scope.toNat) .seq)

/-- RSTK (R284). -/
def rstk (co : Cohort) : Word :=
  BitVec.ofNat 32 (co.depth * 65536 + (match co.ids.head? with | some i => 32768 + i.toNat | none => 0))

/-- A special register as GETR reads it (R173, R251, R282 to R285, R414). -/
def specialReg (s : State) (co : Cohort) (g : Group) (ix : Nat) : Word :=
  match ix with
  | 0 => co.mode | 1 => co.fpf | 2 => co.fpe | 3 => co.cause | 4 => co.xpc | 5 => co.xlw | 6 => co.xaddrlo | 7 => co.xaddrhi
  | 8 => co.loops.ls0 | 9 => co.loops.le0 | 10 => co.loops.lc0 | 11 => co.loops.ls1 | 12 => co.loops.le1 | 13 => co.loops.lc1
  | 14 => rstk co
  | 15 => BitVec.ofNat 32 s.clk
  | 16 => co.cycleh
  | 17 => co.wid.setWidth 32
  | 18 => (co.wid >>> 32).setWidth 32
  | 19 => BitVec.ofNat 32 co.ix
  | 20 => BitVec.ofNat 32 (g.member * 16 + g.size)
  | _ => BitVec.ofNat 32 co.role

/-- A special register after SETR: reserved bits and read-only fields keep (R7, R8, R251, R282 to R285, R414). -/
def setSpecial (co : Cohort) (ix : Nat) (v : Word) : Cohort :=
  match ix with
  | 0 => { co with mode := v &&& 7 }
  | 1 => { co with fpf := v &&& 31 }
  | 2 => { co with fpe := v &&& 31 }
  | 3 => { co with cause := v &&& 0x3FFFFF }
  | 4 => { co with xpc := v }
  | 5 => { co with xlw := v &&& 63 }
  | 6 => { co with xaddrlo := v }
  | 7 => { co with xaddrhi := v }
  | 8 => { co with loops := { co.loops with ls0 := v &&& 0xFFFFFFFC } }
  | 9 => { co with loops := { co.loops with le0 := v &&& 0xFFFFFFFC } }
  | 10 => { co with loops := { co.loops with lc0 := v } }
  | 11 => { co with loops := { co.loops with ls1 := v &&& 0xFFFFFFFC } }
  | 12 => { co with loops := { co.loops with le1 := v &&& 0xFFFFFFFC } }
  | 13 => { co with loops := { co.loops with lc1 := v } }
  | _ => co

/-- GETR (R286): a read of FPF waits for the lane queue (R253), a read of CYCLE latches its high half (R285). -/
def execGetr (d : SReg) (ix : BitVec 6) (s : State) : Out :=
  issueS s { regs := [d.toNat], join := ix == 1 } (fun s x =>
    .done (s.onCohort x.c (fun co =>
      let v := specialReg s co x.g ix.toNat
      let co := if ix == 15 then { co with cycleh := BitVec.ofNat 32 (s.clk / 2 ^ 32) } else co
      co.setReg d.toNat v)) .seq)

/-- SETR (R286). -/
def execSetr (a : SReg) (ix : BitVec 6) (s : State) : Out :=
  issueS s { regs := [a.toNat], reads := [a.toNat], join := ix == 1 } (fun s x =>
    .done (s.onCohort x.c (fun co => setSpecial co ix.toNat (x.co.reg a.toNat))) .seq)

/-- LWAIT (R289). -/
def execLwait (s : State) : Out :=
  issueS s { join := true } (fun s x => if x.co.lanesClear then .done s .seq else .wait (parkIssued s x .results))

/-! ## Control flow -/

/-- The target of a branch (R270). -/
def target {n : Nat} (x : Ctx) (off : BitVec n) : Word := x.co.spc + off.signExtend 32 * 4

/-- BR (R299). -/
def execBr (off : BitVec 25) (s : State) : Out := issueS s {} (fun s x => .done s (.taken (target x off)))

/-- CALL (R300). -/
def execCall (off : BitVec 25) (s : State) : Out :=
  issueS s {} (fun s x => match pushRet s x (x.co.spc + 4) with
    | .error f => .fault s f
    | .ok s => .done s (.goto (target x off)))

/-- RET (R300); it ends a rebuild stub whose entry it pops. -/
def execRet (s : State) : Out :=
  issueS s {} (fun s x => match popRet s x with
    | .error f => .fault s f
    | .ok (s, a) => .done (s.onCohort x.c (fun co =>
        if co.stub == some co.retDepth then { co with stub := none } else co)) (.goto a))

/-- JR (R300). -/
def execJr (a : SReg) (s : State) : Out :=
  issueS s { regs := [a.toNat], reads := [a.toNat] } (fun s x =>
    let t := x.co.reg a.toNat
    if t.toNat % 4 != 0 then .fault s (faultAt 3 t.toNat) else .done s (.taken t))

/-- A conditional branch (R299). -/
def branchIf (s : State) (rs : List SReg) (off : BitVec 13) (cond : Cohort → Bool) : Out :=
  issueS s { regs := rs.map (·.toNat), reads := rs.map (·.toNat) } (fun s x =>
    .done s (if cond x.co then .taken (target x off) else .seq))

/-- BEQ (R299). -/
def execBeq (a b : SReg) (off : BitVec 13) (s : State) : Out :=
  branchIf s [a, b] off (fun co => co.reg a.toNat == co.reg b.toNat)
/-- BNE (R299). -/
def execBne (a b : SReg) (off : BitVec 13) (s : State) : Out :=
  branchIf s [a, b] off (fun co => co.reg a.toNat != co.reg b.toNat)
/-- BLT.I32 (R299). -/
def execBltI32 (a b : SReg) (off : BitVec 13) (s : State) : Out :=
  branchIf s [a, b] off (fun co => decide ((co.reg a.toNat).toInt < (co.reg b.toNat).toInt))
/-- BGE.I32 (R299). -/
def execBgeI32 (a b : SReg) (off : BitVec 13) (s : State) : Out :=
  branchIf s [a, b] off (fun co => decide ((co.reg b.toNat).toInt ≤ (co.reg a.toNat).toInt))
/-- BLT.N32 (R299). -/
def execBltN32 (a b : SReg) (off : BitVec 13) (s : State) : Out :=
  branchIf s [a, b] off (fun co => decide ((co.reg a.toNat).toNat < (co.reg b.toNat).toNat))
/-- BGE.N32 (R299). -/
def execBgeN32 (a b : SReg) (off : BitVec 13) (s : State) : Out :=
  branchIf s [a, b] off (fun co => decide ((co.reg b.toNat).toNat ≤ (co.reg a.toNat).toNat))
/-- BZ (R299). -/
def execBz (a : SReg) (off : BitVec 13) (s : State) : Out := branchIf s [a] off (fun co => co.reg a.toNat == 0)
/-- BNZ (R299). -/
def execBnz (a : SReg) (off : BitVec 13) (s : State) : Out := branchIf s [a] off (fun co => co.reg a.toNat != 0)

/-- Loop k set up. -/
def setLoop (lp : LoopRegs) (k : BitVec 1) (ls le lc : Word) : LoopRegs :=
  if k == 0 then { lp with ls0 := ls, le0 := le, lc0 := lc } else { lp with ls1 := ls, le1 := le, lc1 := lc }

/-- LOOP (R301). -/
def execLoop (k : BitVec 1) (c : SReg) (off : BitVec 18) (s : State) : Out :=
  issueS s { regs := [c.toNat], reads := [c.toNat] } (fun s x =>
    let le := x.co.spc + off.setWidth 32 * 4
    let n := x.co.reg c.toNat
    let s := s.onCohort x.c (fun co => { co with loops := setLoop co.loops k (x.co.spc + 4) le n })
    .done s (if n == 0 then .taken (le + 4) else .seq))

/-- LOOPX (R303). -/
def execLoopx (k : BitVec 1) (s : State) : Out :=
  issueS s {} (fun s x => .done (s.onCohort x.c (fun co =>
    { co with loops := if k == 0 then { co.loops with lc0 := 0 } else { co.loops with lc1 := 0 } })) .seq)

/-- The choice of a lane (R304). -/
def laneChoice (co : Cohort) (a planes lane : Nat) : Nat :=
  ((List.range planes).map (fun p => if (co.reg (a + p)).getLsbD lane then 2 ^ p else 0)).foldl (· + ·) 0

/-- BTAB (R305). -/
def execBtab (d a : SReg) (list : List (BitVec 25)) (s : State) : Out :=
  let n := list.length
  let planes := planeCount n
  let ps := (List.range planes).map (a.toNat + ·)
  issueS s { regs := pairRegs d ++ ps, reads := d.toNat :: ps, len := 1 + n } (fun s x =>
    let act := x.co.reg d.toNat &&& x.co.live
    if act == 0 then .done s (.taken (x.co.spc + BitVec.ofNat 32 (4 * (1 + n))))
    else
      let ix := (maskLanes act).map (fun l => (l, laneChoice x.co a.toNat planes l))
      match ix.find? (fun p => decide (n ≤ p.2)) with
      | some p => .fault s { code := 11, lo := BitVec.ofNat 32 p.1, hi := BitVec.ofNat 32 p.2 }
      | none =>
        let t := ix.foldl (fun m p => min m p.2) n
        let m := ix.foldl (fun (m : Word) p => if p.2 == t then m ||| BitVec.ofNat 32 (2 ^ p.1) else m) 0
        match pushRet s x x.co.spc with
        | .error f => .fault s f
        | .ok s =>
          let s := s.onCohort x.c (fun co => (co.setReg (d.toNat + 1) m).setReg d.toNat (act &&& ~~~m))
          .done s (.goto (target x (list.getD t 0))))

/-- TRAP (R318): the trap is taken once the lane queue has issued. -/
def execTrap (a : SReg) (code : BitVec 12) (s : State) : Out :=
  issueS s { regs := [a.toNat], reads := [a.toNat] } (fun s x =>
    .fault s { code := 0x20, lo := code.setWidth 32, hi := x.co.reg a.toNat })

/-! ## Lane blocks -/

/-- The registers whose pending-export bits a lane word sets (R279). -/
def marksOf (wd : BitVec 96) : List Nat :=
  let w := laneFields wd
  let op := laneOp wd
  if !(op == 0x64 || op == 0x65 || op == 0x67) || !expLegal w then []
  else if op == 0x67 && w.md.getLsbD 1 then [w.d.toNat, w.d.toNat + 1] else [w.d.toNat]

/-- LANE (R169, R306). -/
def execLane (a : SReg) (len : BitVec 6) (index : Word) (s : State) : Out :=
  issueS s { regs := [a.toNat], reads := [a.toNat], len := 2 } (fun s x =>
    let mask := x.co.reg a.toNat &&& x.co.live
    if mask == 0 then .done s .seq
    else if Config.laneQueueDepth ≤ x.co.laneQ.length then .wait s
    else
      let r := blockWords x (len.toNat + 1) s index.toNat
      let s := r.1
      match pickFault r.2.1 with
      | some f => .fault s f
      | none =>
        let ws := r.2.2
        if (List.range 16).any x.co.busyReg then .wait s
        else if (List.range 16).any x.co.badS.contains then
          .fault (addError s ⟨5, true, x.die, x.t, x.core, ((List.range 16).find? x.co.badS.contains).getD 0⟩) { code := 7 }
        else
          let blk : LaneBlock := { words := ws, mask := mask, window := (List.range 16).map x.co.reg, mode := x.co.mode,
                                   fpe := x.co.fpe, spc := x.co.spc,
                                   marks := (List.range ws.length).flatMap (fun i => (marksOf (ws.getD i 0)).map (fun r => (i, r))),
                                   va := some ((x.node.lbase + 12 * index.toNat) % 2 ^ 64) }
          .done (s.onCohort x.c (fun co => { co with laneQ := co.laneQ ++ [blk] })) .seq)

/-! ## Barrier objects -/

/-- The object's port has served a cohort in this clk, whatever came of the operation (R313). -/
def portTaken (s : State) (x : Ctx) (off : Nat) : State := s.onGroup x.co.grp (fun g => g.portUsed off s.clk x.co.ix)

/-- A BAR minor on the object at s[a] (R51, R312): the checks, the object's port (R313), then its effect. An acquire (`acq`) waits for
the acquires before it (R114). -/
def barOp (s : State) (d a : SReg) (more : List Nat) (f : State → Ctx → Nat → SRes) (acq : Bool := false) : Out :=
  issueS s { regs := d.toNat :: a.toNat :: more, reads := a.toNat :: more, join := true, rd := acq, wr := true } (fun s x =>
    let off := (x.co.reg a.toNat).toNat
    match checkLocal x 0 off 32 32 with
    | some e => .fault s e
    | none => if x.g.portOpen off s.clk x.co.ix then f s x off else .wait s)

/-- A BAR minor that reads the object: F_DATA at an uncorrectable doubleword (R40). -/
def barRead (s : State) (d a : SReg) (more : List Nat) (f : State → Ctx → Nat → SRes) (acq : Bool := false) : Out :=
  barOp s d a more (fun s x off => match readLocal s x 0 off 32 with
    | .error (s, e) => .fault (portTaken s x off) e
    | .ok _ => f s x off) acq

/-- F_BAR on an object. -/
def barFault (s : State) (x : Ctx) (off : Nat) : SRes := .fault (portTaken s x off) { code := 12, lo := BitVec.ofNat 32 off }

/-- The group after an operation on an object, and s[d]. -/
def barDone (s : State) (x : Ctx) (off : Nat) (g : Group) (d : SReg) (v : Nat) : SRes :=
  .done ((s.onGroup x.co.grp (fun _ => g.portUsed off s.clk x.co.ix)).onCohort x.c (fun co => co.setReg d.toNat (BitVec.ofNat 32 v))) .seq

/-- BAR.INIT (R312): it reads nothing of the object. -/
def execBarInit (d a b : SReg) (s : State) : Out :=
  barOp s d a [b.toNat] (fun s x off =>
    let n := (x.co.reg b.toNat).toNat
    if n == 0 || decide (65535 < n) then barFault s x off
    else barDone (settleCtx s x) x off (writeBar x.g off ⟨0, n, 0, 0, 0, 0xFFFF, 0xFFFF, 0, 0, 1, 1⟩) d 0)

/-- BAR.ARRIVE and BAR.DROP (R312): a release at the scope, then the arrival. -/
def barArrival (s : State) (d a : SReg) (scope : BitVec 6) (drop : Bool) : Out :=
  barRead s d a [] (fun s x off =>
    match arriveBar x.g off s.clk x.co.ix scope.toNat drop with
    | none => barFault s x off
    | some (g, phase) => match release s x.core x.t x.c scope.toNat with
      | none => .wait s
      | some s => barDone s x off g d phase)

/-- BAR.ARRIVE (R312). -/
def execBarArrive (d a : SReg) (scope : BitVec 6) (s : State) : Out := barArrival s d a scope false

/-- BAR.DROP (R312). -/
def execBarDrop (d a : SReg) (scope : BitVec 6) (s : State) : Out := barArrival s d a scope true

/-- BAR.EXPECT (R312). -/
def execBarExpect (d a b : SReg) (s : State) : Out :=
  barRead s d a [b.toNat] (fun s x off =>
    match expectBar x.g off s.clk x.co.ix (x.co.reg b.toNat).toNat with
    | none => barFault s x off
    | some (g, phase) => barDone (settleCtx s x) x off g d phase)

/-- BAR.WAIT (R312): the cohort parks until the phase has completed; the return is an acquire (R126). -/
def execBarWait (d a b : SReg) (s : State) : Out :=
  barRead s d a [b.toNat] (fun s x off =>
    let p := x.co.reg b.toNat
    let o := readBar x.g off
    if phaseDone o.phase p.toNat then barDone (acquire s x.core (phaseScope o p.toNat)) x off (x.g.waitEnds x.co.ix) d o.phase
    else
      let s := s.onGroup x.co.grp (fun g => (g.portUsed off s.clk x.co.ix).waitOn ⟨x.co.ix, off, p, s.clk⟩)
      .wait (parkIssued s x (.barrier off p))) true

/-- BAR.TEST (R312). -/
def execBarTest (d a b : SReg) (s : State) : Out :=
  barRead s d a [b.toNat] (fun s x off =>
    let p := x.co.reg b.toNat
    let o := readBar x.g off
    if phaseDone o.phase p.toNat then barDone (acquire s x.core (phaseScope o p.toNat)) x off x.g d 1
    else barDone s x off x.g d 0) true

/-! ## Safe points -/

/-- A safe-point entry as data (R417). -/
def safeEntry (b : List Byte) : SafeEntry :=
  { slive := BitVec.ofNat 64 (leNat (b.take 8)), vlive := BitVec.ofNat 256 (leNat ((b.drop 8).take 32)),
    stub := BitVec.ofNat 32 (wordAt b 40), loops := BitVec.ofNat 2 (leNat ((b.drop 44).take 1)),
    exts := (List.range (leNat ((b.drop 45).take 1))).map (fun i => BitVec.ofNat 32 (wordAt b (48 + 4 * i))) }

/-- Whether an extent is empty or reaches past its allocation (R418). -/
def extentBad (n : NodeCopy) (e : Word) : Bool :=
  let first := bitsOf e.toNat 29 15
  let last := bitsOf e.toNat 14 0
  decide (last < first) || decide (n.alloc (e.toNat / 2 ^ 30) < (last + 1) * 64)

/-- Whether a safe-point entry fails a check of R418. -/
def safeBad (x : Ctx) (b : List Byte) : Bool :=
  let byte := fun i => leNat ((b.drop i).take 1)
  bitOf (byte 40) 1 || decide (3 < byte 44) || byte 46 != 0 || byte 47 != 0 || decide (4 < byte 45) ||
    ((safeEntry b).exts).any (extentBad x.node) || leNat ((b.drop 8).take 32) / 2 ^ x.co.nv != 0

/-- The anchor that a SAFE takes (R416). -/
def anchorOf (co : Cohort) (n : Nat) (e : SafeEntry) : Anchor :=
  { ix := n, spc := co.spc, entry := e, loops := co.loops, mode := co.mode, fpe := co.fpe, depth := co.depth, ids := co.ids,
    retDepth := co.retDepth, ret := co.ret }

/-- SAFE (R315, R418, R427). -/
def execSafe (n : BitVec 10) (s : State) : Out :=
  issueS s { join := true, safe := true } (fun s x =>
    if haltsHere x then haltCohort s x
    else if x.co.handler || decide (x.node.nsafe ≤ n.toNat) then .fault s { code := 1 }
    else
      let va := (x.node.spt + 64 * n.toNat) % 2 ^ 64
      match checkAccess s x.core x.t va 64 1 .read with
      | .error f => .fault s f
      | .ok p => match loadBytes s x.core x.c x.t va p 64 false with
        | (s, none) => .fault s (faultAt 7 va)
        | (s, some b) =>
          if safeBad x b then .fault s { code := 1 }
          else
            let s := s.onCohort x.c (fun co => { co with anchor := anchorOf co n.toNat (safeEntry b) })
            if x.g.save then
              .done ((latchDrop s x.core x.c).onCohort x.c (fun co => { co with park := some .saved })) .seq
            else .done s .seq)

/-! ## Regions and stops -/

/-- The breakpoint that a region edge meets (R439, R444): edge bit 0 for ENTER, 1 for LEAVE. -/
def breakpointAt (T : Tenant) (x : Ctx) (edge : Nat) (id : BitVec 12) : Option Nat :=
  (List.range 4).find? (fun n =>
    let b := (get 0 T.dbgbp n).toNat
    bitOf b 63 && bitOf b (61 + edge) && bitsOf b 57 52 == x.slot && bitsOf b 51 40 == x.g.node && bitsOf b 11 0 == id.toNat)

/-- Why a cohort stops at a region edge (R444): the breakpoint, or a HALT command (4). -/
def stopReason (s : State) (x : Ctx) (edge : Nat) (id : Option (BitVec 12)) : Option Nat :=
  let T := s.tenant x.t
  if !T.right || x.co.handler || x.co.stub.isSome then none
  else match id.bind (breakpointAt T x edge) with
    | some n => some n
    | none => if T.haltCmd == some x.slot then some 4 else none

/-- A stop (R444): a free halt slot is taken and the group halts, or the stop is missed. -/
def takeStop (s : State) (x : Ctx) (why : Nat) : State :=
  let T := s.tenant x.t
  let src := why / 4
  match pickFree (T.halts.map (·.1)) 8 with
  | none => s.onTenant x.t (fun T =>
      if src == 1 then { T with dbgst := 3, dbgfail := 5, haltCmd := none } else { T with dbgmiss := min 255 (T.dbgmiss + 1) })
  | some h =>
    let s := s.onTenant x.t (fun T =>
      { T with halts := store T.halts h ⟨x.co.grp, x.co.ix, why % 4, src⟩,
               dbgst := if src == 1 then 2 else T.dbgst, haltCmd := if src == 1 then none else T.haltCmd })
    let s := s.onGroup x.co.grp (fun g => { g with halt := some h })
    let s := s.onCohort x.c (fun co => { co with halted := true })
    match lookup s.cohorts x.c with
    | some co => traceRecord s x.t 4 0 (whoIs s co x.co.spc) (why % 4 + 4 * src + 8 * h)
    | none => s

/-- A region edge: the region stack changes, the edge is traced, and the cohort may stop (R317, R442, R444). -/
def regionEdge (s : State) (x : Ctx) (edge : Nat) (id : Option (BitVec 12)) (f : Cohort → Cohort) : SRes :=
  if haltsHere x then haltCohort s x
  else
    let why := stopReason s x edge id
    if why.isSome && !x.co.laneIdle then .wait s
    else if why.isSome && !x.co.lanesClear then .wait (parkCohort s x .results)
    else
      let s := (fillsFirst s x.core x.t x.c).onCohort x.c f
      let s := traceRecord s x.t (2 + edge) 1 (whoIs s (f x.co) x.co.spc) 0
      .done (match why with | some w => takeStop s x w | none => s) .seq

/-- ENTER (R317). -/
def execEnter (id : BitVec 12) (s : State) : Out :=
  issueS s {} (fun s x => regionEdge s x 0 (some id) (fun co =>
    { co with depth := min 65535 (co.depth + 1), ids := (id :: co.ids).take 8 }))

/-- LEAVE (R317). -/
def execLeave (s : State) : Out :=
  issueS s {} (fun s x => regionEdge s x 1 x.co.ids.head? (fun co =>
    { co with depth := co.depth - 1, ids := co.ids.drop 1 }))

end Sys2Proof.Machine
end

