-- ==== Sys2Proof/Machine/Tile.lean ====
section
/-! DEFINITION. Tile commands: their descriptors, the checks at issue, and the Xqtl instructions (R150 to R164, R403). -/

namespace Sys2Proof.Machine

/-! ## The descriptor (R153, R154, R160, R403) -/

namespace TileCmd

def d (c : TileCmd) (hi lo : Nat) : Nat := bitsOf c.desc.toNat hi lo
def ga (c : TileCmd) : Nat := c.d 63 0
def gb (c : TileCmd) : Nat := c.d 127 64
def gsa (c : TileCmd) : Int := sext (c.d 159 128) 32
def gsb (c : TileCmd) : Int := sext (c.d 191 160) 32
def lo (c : TileCmd) : Nat := c.d 211 192
def ls (c : TileCmd) : Nat := c.d 243 224
def rowb (c : TileCmd) : Nat := c.d 271 256 + 1
def spc (c : TileCmd) : Nat := c.d 289 288
def be (c : TileCmd) : Bool := c.desc.getLsbD 290
def exp (c : TileCmd) : Bool := c.desc.getLsbD 291
def boff (c : TileCmd) : Nat := c.d 304 292 * 32
def isTld (c : TileCmd) : Bool := c.kind == 0
def isTldt (c : TileCmd) : Bool := c.kind == 1
def isTlds (c : TileCmd) : Bool := c.kind == 2
def isTgath (c : TileCmd) : Bool := c.kind == 3
def isTst (c : TileCmd) : Bool := c.kind == 4
def isTcopy (c : TileCmd) : Bool := c.kind == 5
/-- Bits of a TLDT element. -/
def tldtBits (c : TileCmd) : Nat := match c.d 321 320 with | 0 => 8 | 1 => 16 | 2 => 32 | _ => 4
/-- Source rows of a TLDT band (R159). -/
def band (c : TileCmd) : Nat := 128 / c.tldtBits
/-- Elements of a TLDT source row. -/
def tldtCols (c : TileCmd) : Nat := c.rowb * 8 / c.tldtBits
/-- Rows that complete together. -/
def unit (c : TileCmd) : Nat := if c.isTldt then c.band else 1
def keepsLog (c : TileCmd) : Bool := c.isTgath && c.desc.getLsbD 320
def ilog (c : TileCmd) : Nat := 4 * c.d 334 321
def xf (c : TileCmd) : Nat := c.d 327 320
def rm (c : TileCmd) : Nat := c.d 329 328
def rtb (c : TileCmd) : Nat := c.d 347 330
def np (c : TileCmd) : Nat := c.d 355 348 + 1
def dlt (c : TileCmd) : Nat := c.d 371 356
/-- Whether a TCOPY rotates. -/
def rotates (c : TileCmd) : Bool := c.isTcopy && decide (0x10 ≤ c.xf)
/-- TCOPY's source and destination element types, by the TY codes of R319; 0 for bytes (R160). -/
def xfTypes (c : TileCmd) : Option (Nat × Nat) :=
  match c.xf with
  | 0x00 => some (0, 0)
  | 0x01 => some (3, 4) | 0x02 => some (3, 5) | 0x03 => some (3, 10) | 0x04 => some (3, 11)
  | 0x05 => some (4, 3) | 0x06 => some (5, 3) | 0x07 => some (10, 3) | 0x08 => some (11, 3)
  | 0x09 => some (4, 5) | 0x0A => some (5, 4)
  | 0x10 | 0x18 => some (3, 3) | 0x11 | 0x19 => some (4, 4) | 0x12 | 0x1A => some (5, 5)
  | _ => none
/-- Bytes of an element of those types. -/
def typeBytes (ty : Nat) : Nat := match ty with | 3 => 4 | 4 | 5 => 2 | _ => 1
def srcBytes (c : TileCmd) : Nat := match c.xfTypes with | some p => typeBytes p.1 | none => 1
def dstBytes (c : TileCmd) : Nat := match c.xfTypes with | some p => typeBytes p.2 | none => 1
/-- Bytes of a TCOPY destination row. -/
def dstRow (c : TileCmd) : Nat := c.rowb * c.dstBytes / c.srcBytes
/-- Global rows of A and of B. -/
def rowA (c : TileCmd) (i : Nat) : Nat := lowBits (c.ga + (i : Int) * c.gsa) 64
def rowB (c : TileCmd) (i : Nat) : Nat := lowBits (c.gb + (i : Int) * c.gsb) 64

/-- The span of rows of n bytes: lowest byte, and the byte after the highest. -/
def spanOf (base : Nat) (stride : Int) (rows n : Nat) : Int × Int :=
  let last := (base : Int) + (rows - 1 : Nat) * stride
  (min (base : Int) last, max (base : Int) last + (n : Int))

/-- Whether a TCOPY's spans overlap (R161). -/
def overlaps (c : TileCmd) : Bool :=
  let a := spanOf c.ga c.gsa c.nrows c.rowb
  let b := spanOf c.gb c.gsb c.nrows c.dstRow
  c.isTcopy && decide (a.1 < b.2) && decide (b.1 < a.2)
/-- Whether its rows are processed in descending order (R161). -/
def descending (c : TileCmd) : Bool := c.overlaps && decide (c.ga < c.gb)

/-! TLDS (R403 to R406) -/

def tK (c : TileCmd) : Nat := 8 * (c.d 460 456 + 1)
def tET (c : TileCmd) : Nat := c.d 463 461
def tT (c : TileCmd) : Nat := c.d 465 464 + 1
def tPat (c : TileCmd) : Nat := c.d 467 466
def tDE (c : TileCmd) : Bool := c.desc.getLsbD 468
def tEps (c : TileCmd) : Nat := c.d 511 480
/-- BS of R402. -/
def tBS (c : TileCmd) : Nat := 16 * ((c.tK + 127) / 128)
/-- Bits of an element, run length and slots. -/
def tBits (c : TileCmd) : Nat := if c.tET ≤ 1 then 16 else if c.tET ≤ 4 then 8 else 4
def tGroup (c : TileCmd) : Nat := if c.tET ≤ 1 then 8 else if c.tET ≤ 4 then 16 else 32
def tRun (c : TileCmd) : Nat := if c.tPat == 3 then 8 else 4
def tSlots (c : TileCmd) : Nat := match c.tPat with | 1 => 1 | 2 => 2 | _ => 4
/-- Slots of a row of a term. -/
def rowSlots (c : TileCmd) : Nat := c.tK / c.tRun * c.tSlots
def tvs (c : TileCmd) : Nat := roundUp (c.rowSlots * c.tBits / 8) 16
def tis (c : TileCmd) : Nat := roundUp (c.rowSlots / 2) 16
def tsz (c : TileCmd) : Nat := roundUp (c.nrows * c.tvs) 64 + roundUp (c.nrows * c.tis) 64
def tds (c : TileCmd) : Nat := roundUp (c.tK * c.tBits / 8) 16
/-- FP, the footprint (R406). -/
def footprint (c : TileCmd) : Nat := max (64 + c.tT * c.tsz + 4096) (64 + c.nrows * c.tds)

/-! ## Bytes counted, local rows -/

/-- The byte total of a command (R154, R406). -/
def total (c : TileCmd) : Nat :=
  if c.isTlds then c.footprint
  else if c.isTcopy then c.nrows * c.dstRow
  else if c.isTldt then c.nrows / c.band * c.rowb
  else c.nrows * c.rowb

/-- The number of local rows and the bytes of one (R155, R159). -/
def localRows (c : TileCmd) : Nat × Nat :=
  if c.isTldt then (c.tldtCols, c.nrows * c.tldtBits / 8) else (c.nrows, c.rowb)

/-- The ranges of its local space that a unit of a landing command writes (R154, R159): offset and length. -/
def rowLands (c : TileCmd) (row : Nat) : List (Nat × Nat) :=
  if c.isTldt then (List.range c.tldtCols).map (fun j => (c.lo + j * c.ls + row * c.tldtBits / 8, 16))
  else [(c.lo + row * c.ls, c.rowb)]

/-- Whether a command has still to land on a 64-byte chunk of a space. -/
def landsOn (c : TileCmd) (sp k : Nat) : Bool :=
  let hits := fun r : Nat × Nat => decide (r.1 < k + 64) && decide (k < r.1 + r.2)
  if c.isTst || c.isTcopy then false
  else if c.isTlds then sp == 1 && c.rowdone == 0 && hits (c.lo, c.footprint)
  else c.spc == sp && (List.range c.nrows).any (fun i => i % c.unit == 0 && !c.rowComplete i && (c.rowLands i).any hits)

end TileCmd

/-! ## The checks at issue (R155, R159 to R161, R403) -/

/-- A reserved or unused field, or a shape, that is F_ILL. ILOG counts as unused where LG = 0, BOFF where BE = 0 and RM where XF = 0 do
not (assumption 60). -/
def tileIll (c : TileCmd) : Bool :=
  let common := c.d 223 212 != 0 || c.d 255 244 != 0 || c.d 319 307 != 0 || decide (2 ≤ c.d 306 305) || c.rowb % 16 != 0
  let noTx := c.d 511 384 != 0
  let noB := c.gb != 0 || c.d 191 160 != 0
  common || (match c.kind with
    | 0 => noTx || c.spc == 3 || noB || c.d 383 320 != 0
    | 1 => noTx || c.spc == 3 || noB || c.d 383 322 != 0 || decide (256 < c.nrows) || decide (256 < c.tldtCols) ||
           c.nrows % c.band != 0
    | 2 => c.d 479 469 != 0 || c.d 455 384 != 0 || c.tPat == 0 || decide (6 ≤ c.tET) || c.spc != 1 || c.nrows % 16 != 0 ||
           decide (256 < c.nrows) || c.rowb != c.tBS || c.gsa != (c.tBS : Int) || c.tK % c.tGroup != 0 ||
           c.tK % c.tRun != 0 || c.ls != 0 || c.d 383 320 != 0 || c.gsb != 0
    | 3 => noTx || c.spc == 3 || c.gsb != 0 || c.d 383 335 != 0 || (!c.keepsLog && c.ilog != 0)
    | 4 => noTx || c.spc == 1 || c.spc == 2 || noB || c.d 383 320 != 0
    | _ => noTx || c.spc != 0 || c.lo != 0 || c.ls != 0 || c.d 383 372 != 0 || c.xfTypes.isNone || decide (8192 < c.rowb) ||
           c.dstRow % 16 != 0 || (!c.rotates && c.d 371 330 != 0) ||
           (c.rotates && c.rowb / c.srcBytes % (2 * c.np) != 0) ||
           (c.overlaps && (c.gsa != c.gsb || c.srcBytes != c.dstBytes)))

/-- An alignment that is F_ALIGN. -/
def tileUnaligned (c : TileCmd) : Bool :=
  let rowsA := c.ga % 16 != 0 || (decide (1 < c.nrows) && c.gsa % 16 != 0)
  c.lo % 16 != 0 || c.ls % 16 != 0 ||
  (match c.kind with
    | 2 => rowsA || c.lo % 64 != 0 || c.gb % max 1 (c.tBits / 8) != 0
    | 3 => c.gb % 4 != 0
    | 5 => rowsA || c.gb % 16 != 0 || (decide (1 < c.nrows) && c.gsb % 16 != 0) || (c.rotates && c.rtb % 8 != 0)
    | _ => rowsA)

/-- A range that passes its memory. -/
def tileOutside (n : NodeCopy) (c : TileCmd) : Bool :=
  (c.be && decide (n.spsz < c.boff + 32)) ||
  (match c.kind with
    | 2 => decide (n.wbsz < c.lo + c.footprint)
    | 5 => c.rotates && decide (n.spsz < c.rtb + 8 * c.np * (c.dlt + 1))
    | _ => decide (n.alloc c.spc < c.lo + (c.localRows.1 - 1) * c.ls + c.localRows.2) ||
           (c.keepsLog && decide (0x4000 < c.ilog + 4 * c.nrows)))

/-- The checks of R155 but for the barrier's, in the table's order (assumption 61). -/
def tileFault (n : NodeCopy) (c : TileCmd) : Option Nat :=
  if tileIll c then some 1 else if tileUnaligned c then some 3 else if tileOutside n c then some 4 else none

/-! ## Commands in their slots -/

/-- The agent code of a tile engine (R443). -/
def engineAgent (st : Bool) : Nat := if st then agentStorerEngine else agentLoaderEngine
/-- The agent code of a loader or storer core. -/
def rvAgent (st : Bool) : Nat := if st then agentStorer else agentLoader

/-- A command in a slot replaced. -/
def setCmd (s : State) (k : RvCtx) (slot : Nat) (c : TileCmd) : State :=
  onRv s k (fun r => { r with slots := store r.slots slot c })
/-- A slot freed. -/
def freeSlot (s : State) (k : RvCtx) (slot : Nat) : State := onRv s k (fun r => { r with slots := erase r.slots slot })

/-- The command stops with a fault (R157): tqva receives the faulting address, which is 0 for F_BAR and the offset for a fault of a
local space (assumption 62). -/
def stopCmd (s : State) (k : RvCtx) (slot : Nat) (c : TileCmd) (code va : Nat) : State :=
  setCmd s k slot { c with st := 3, fcode := code, tqva := BitVec.ofNat 64 va, waits := [], rej := none }

/-! ### The barrier's port (R313) -/

/-- Whether a doubleword of a barrier object holds an uncorrectable error. -/
def barBad (s : State) (k : RvCtx) (off : Nat) : Bool := (lookup s.groups k.gid).any (fun g => g.rangeBad 0 off 32)

/-- An uncorrectable error of a local space found for a loader, a storer or their engines (R40). -/
def spotError (s : State) (k : RvCtx) (place off : Nat) : State :=
  addError s ⟨place, true, k.g.core / 128, k.l.t, k.g.core, off⟩

/-- Whether an agent's operation may reach an object's port in this clk. -/
def portFree (s : State) (k : RvCtx) (off agent : Nat) : Bool := (lookup s.groups k.gid).all (fun g => g.portOpen off s.clk agent)

/-- Whether a command's barrier, if it counts on one, may take its engine's operation in this clk. -/
def cmdPort (s : State) (k : RvCtx) (c : TileCmd) : Bool := !c.be || portFree s k c.boff (engineAgent k.st)

/-- The group after an agent's operation on an object. -/
def setBar (s : State) (k : RvCtx) (off agent : Nat) (g : Group) : State := s.setGroup k.gid (g.portUsed off s.clk agent)

/-- The issue checks and, with EXP, the expected bytes (R153, R155): the command queued, or stopped at issue. The tqva of a
command that stops here stays as it was, 0 for a new one: the spec names no address for it (DESIGN CHOICE, assumption 62). -/
def admitCmd (s : State) (k : RvCtx) (slot : Nat) (c : TileCmd) : State :=
  let bad := fun s code => setCmd s k slot { c with st := 3, fcode := code, atIssue := true, owed := 0 }
  match tileFault (k.l.node k.g.node) c with
  | some code => bad s code
  | none =>
    let c := { c with st := 1, fcode := 0, atIssue := false, hinc := if c.descending then c.nrows else 0 }
    if c.be && c.exp then
      if barBad s k c.boff then bad (spotError s k 7 c.boff) 7
      else match (lookup s.groups k.gid).bind (fun g => expectBar g c.boff s.clk (engineAgent k.st) c.total) with
      | none => bad s 12
      | some (g, _) => setCmd (setBar s k c.boff (engineAgent k.st) g) k slot { c with owed := c.total }
    else setCmd s k slot c

/-- A command issued (R150, R152, R153). `only` says which core may issue it. -/
def issueTile (s : State) (kind : Nat) (only : Option Bool) (rd rs1 : XReg) : Out :=
  issueRv s (fun s k =>
    let a := (k.r.xreg rs1).toNat
    if only == some (!k.st) then .halt s 1
    else if a % 64 != 0 then .halt s 3
    else if a < 0x10000 || 0x14000 < a + 64 then .halt s 4
    else match pickFree (k.r.slots.map (·.1)) Config.tileSlots with
      | none => rvWrite s k false rd 0
      | some slot =>
        let c : TileCmd := { desc := BitVec.ofNat 512 (leNat (k.r.readBytes a 64)), ticket := k.r.tqtick, kind := kind,
                             fwait := k.r.fnext }
        if c.exp && !cmdPort s k c then .wait s
        else
        let s := onRv s k (fun r => { r with tqtick := r.tqtick + 1 })
        rvWrite (admitCmd s k slot c) k false rd k.r.tqtick)

/-- TLD (R154). -/
def execTld (rd rs1 : XReg) (s : State) : Out := issueTile s 0 (some false) rd rs1
/-- TLDT (R159). -/
def execTldt (rd rs1 : XReg) (s : State) : Out := issueTile s 1 (some false) rd rs1
/-- TLDS (R403). -/
def execTlds (rd rs1 : XReg) (s : State) : Out := issueTile s 2 (some false) rd rs1
/-- TGATH (R158). -/
def execTgath (rd rs1 : XReg) (s : State) : Out := issueTile s 3 (some false) rd rs1
/-- TST (R154). -/
def execTst (rd rs1 : XReg) (s : State) : Out := issueTile s 4 (some true) rd rs1
/-- TCOPY (R160). -/
def execTcopy (rd rs1 : XReg) (s : State) : Out := issueTile s 5 none rd rs1

/-! ## Queue instructions (R162) -/

/-- The slot that holds a ticket. -/
def ticketSlot (r : RvCore) (t : Dword) : Option (Nat × TileCmd) := r.slots.find? (fun p => p.2.ticket == t)

/-- Bytes that a killed command leaves expected are taken back (R162), down to 0: where the phase has completed meanwhile and its
expected bytes started again below them, the spec is silent, and the model's subtraction stops at 0 (DESIGN CHOICE, assumption 77). -/
def unexpect (s : State) (k : RvCtx) (c : TileCmd) : State :=
  if c.owed == 0 then s
  else match lookup s.groups k.gid with
    | none => s
    | some g =>
      let b := readBar g c.boff
      setBar s k c.boff (engineAgent k.st) (settleBar g c.boff s.clk (engineAgent k.st) { b with expb := b.expb - c.owed })

/-! ### Landing -/

/-- Bytes of a command landed in a local space (R57): offsets and bytes. -/
def land (s : State) (k : RvCtx) (c : TileCmd) (sp : Nat) (ws : List (Nat × List Byte)) : State :=
  if sp == 0 then s.onGroup k.gid (fun g => ws.foldl (fun g w => g.write 0 w.1 w.2) g)
  else writeBuffer s k.gid (.tile k.st c.ticket.toNat) sp ws

/-- Landings cut into 16-byte chunks. -/
def chunks16 (ws : List (Nat × List Byte)) : List (Nat × List Byte) :=
  ws.flatMap (fun w => (List.range ((w.2.length + 15) / 16)).map (fun i => (w.1 + 16 * i, (w.2.drop (16 * i)).take 16)))

/-- The chunks of a footprint that a TLDS killed while it writes has written: each is a free value (R408). -/
def writtenChunks (s : State) (c : TileCmd) : List (Nat × List Byte) :=
  ((chunks16 [(c.lo, c.out)]).zip (List.range c.out.length)).filterMap (fun p =>
    if Config.freePick [s.draw] p.2 % 2 == 0 then some p.1 else none)

/-- Whether a running command has issued rows that are not complete: they finish before it is killed or stopped (R157, R162). -/
def TileCmd.rowsOut (c : TileCmd) : Bool := c.st == 2 && !c.early.isEmpty

/-- A command killed (R162, R408). -/
def killCmd (s : State) (k : RvCtx) (slot : Nat) (c : TileCmd) : State :=
  let s := if c.isTlds && c.st == 2 && c.rowdone == 0 && !c.out.isEmpty then
      land { s with draw := s.draw + 1 } k c 1 (writtenChunks s c) else s
  freeSlot (unexpect s k c) k slot

/-- ECALL (R148). -/
def execEcall (s : State) : Out :=
  issueRv s (fun s k =>
    if k.r.slots.any (fun p => p.2.st != 3 || (p.2.owed != 0 && !cmdPort s k p.2)) then .wait s
    else
      let s := k.r.slots.foldl (fun s p => killCmd s k p.1 p.2) s
      let s := onRv s k (fun r => { r with mode := .ended, pc := k.nextPc false, instret := r.instret + 1 })
      .wait (groupEnds s k.gid))

/-- TWAIT (R162). -/
def execTwait (rd rs1 : XReg) (s : State) : Out :=
  issueRv s (fun s k =>
    let upTo := k.r.slots.filter (fun p => decide (p.2.ticket.toNat ≤ (k.r.xreg rs1).toNat))
    if upTo.any (fun p => p.2.st != 3) then .wait s
    else
      let low := upTo.foldl (fun (m : Nat) p => if m == 0 then p.2.ticket.toNat else min m p.2.ticket.toNat) 0
      rvWrite s k false rd (BitVec.ofNat 64 low))

/-- TFENCE (R162): commands issued later wait for those issued earlier. -/
def execTfence (s : State) : Out :=
  issueRv s (fun s k => .done (onRv s k (fun r => { r with fnext := r.tqtick })) (k.nextPc false))

/-- TSTAT (R162, R163). -/
def execTstat (rd rs1 : XReg) (s : State) : Out :=
  issueRv s (fun s k => match ticketSlot k.r (k.r.xreg rs1) with
    | none => rvWrite s k false rd 0
    | some (slot, c) =>
      rvWrite (onRv s k (fun r => { r with rowsel := BitVec.ofNat 64 slot })) k false rd (c.status slot))

/-- TRES (R162). -/
def execTres (rd rs1 : XReg) (s : State) : Out :=
  issueRv s (fun s k => match ticketSlot k.r (k.r.xreg rs1) with
    | none => rvWrite s k false rd 1
    | some (slot, c) =>
      if c.st != 3 then rvWrite s k false rd 1
      else if c.atIssue && c.exp && !cmdPort s k c then .wait s
      else
        let s := if c.atIssue then admitCmd s k slot c
                 else setCmd s k slot { c with st := 1, fcode := 0, waits := [], out := [], bitmap := [] }
        rvWrite s k false rd 0)

/-- TKILL (R162). -/
def execTkill (rd rs1 : XReg) (s : State) : Out :=
  issueRv s (fun s k => match ticketSlot k.r (k.r.xreg rs1) with
    | none => rvWrite s k false rd 1
    | some (slot, c) =>
      if c.rowsOut || (c.owed != 0 && !cmdPort s k c) then .wait s else rvWrite (killCmd s k slot c) k false rd 0)

/-! ## Barrier instructions (R164) -/

/-- The object's port has served the core in this clk, whatever came of the operation (R313). -/
def tbarPort (s : State) (k : RvCtx) (off : Nat) : State := s.onGroup k.gid (fun g => g.portUsed off s.clk (rvAgent k.st))

/-- A TBAR on the object at rs1[17:0] (R147, R164), when the object's port can take it (R313). An object that cannot be read is F_DATA
(R40, assumption 59). -/
def tbarOp (s : State) (rs1 : XReg) (f : State → RvCtx → Nat → RvRes) : Out :=
  issueRv s (fun s k =>
    let off := (k.r.xreg rs1).toNat % 2 ^ 18
    if off % 32 != 0 then .halt s 3
    else if (k.l.node k.g.node).spsz < off + 32 then .halt s 4
    else if !portFree s k off (rvAgent k.st) then .wait s
    else if barBad s k off then .halt (tbarPort (spotError s k 7 off) k off) 7
    else f s k off)

/-- TBAR.ARRIVE (R164). -/
def execTbarArrive (rd rs1 : XReg) (s : State) : Out :=
  tbarOp s rs1 (fun s k off => match arriveBar k.g off s.clk (rvAgent k.st) 1 false with
    | none => .halt (tbarPort s k off) 12
    | some (g, p) => rvWrite (setBar s k off (rvAgent k.st) g) k false rd (BitVec.ofNat 64 p))

/-- TBAR.EXPECT (R164). -/
def execTbarExpect (rd rs1 rs2 : XReg) (s : State) : Out :=
  tbarOp s rs1 (fun s k off => match expectBar k.g off s.clk (rvAgent k.st) ((k.r.xreg rs2).toNat % 2 ^ 32) with
    | none => .halt (tbarPort s k off) 12
    | some (g, p) => rvWrite (setBar s k off (rvAgent k.st) g) k false rd (BitVec.ofNat 64 p))

/-- TBAR.WAIT (R164). -/
def execTbarWait (rd rs1 rs2 : XReg) (s : State) : Out :=
  tbarOp s rs1 (fun s k off =>
    let b := readBar k.g off
    let p := (k.r.xreg rs2).toNat % 2 ^ 32
    if phaseDone b.phase p then
      rvWrite (setBar (acquire s k.g.core (phaseScope b p)) k off (rvAgent k.st) (k.g.waitEnds (rvAgent k.st))) k false rd
        (BitVec.ofNat 64 b.phase)
    else .wait ((tbarPort s k off).onGroup k.gid (fun g => g.waitOn ⟨rvAgent k.st, off, BitVec.ofNat 32 p, s.clk⟩)))

/-- TBAR.TEST (R164). -/
def execTbarTest (rd rs1 rs2 : XReg) (s : State) : Out :=
  tbarOp s rs1 (fun s k off =>
    let b := readBar k.g off
    let p := (k.r.xreg rs2).toNat % 2 ^ 32
    let used := fun s => setBar s k off (rvAgent k.st) k.g
    if phaseDone b.phase p then rvWrite (used (acquire s k.g.core (phaseScope b p))) k false rd 1
    else rvWrite (used s) k false rd 0)

end Sys2Proof.Machine
end

