-- ==== Sys2Proof/Machine/Matrix.lean ====
section
/-! DEFINITION. The matrix engine: issuing operations, batches, and the steps of the engine (R385 to R412). -/

namespace Sys2Proof.Machine

/-! ## Shapes and operands (R385 to R388) -/

/-- Bits of an element of a type code (R386). -/
def codeBits (t : Nat) : Nat := if t ≤ 1 then 16 else if t ≤ 4 then 8 else 4
/-- The class of a type code, 0 for a reserved one. -/
def codeClass (t : Nat) : Nat := match t with | 0 | 1 => 1 | 2 | 3 => 2 | 4 => 3 | 5 => 4 | _ => 0
/-- The K-group of a type code (R385). -/
def codeGroup (t : Nat) : Nat := if t ≤ 1 then 8 else if t ≤ 4 then 16 else 32
/-- The float format of a type code. -/
def codeFmt (t : Nat) : Fmt := match t with | 0 => f16 | 1 => bf16 | 2 => e4m3 | 3 => e5m2 | _ => e2m1
/-- Bytes of k elements. -/
def codeBytes (t k : Nat) : Nat := k * codeBits t / 8
/-- The run length of a pattern (R404). -/
def patRun (p : Nat) : Nat := if p == 3 then 8 else 4
/-- The slots of a run (R404). -/
def patSlots (p : Nat) : Nat := match p with | 1 => 1 | 2 => 2 | _ => 4

namespace MatOp

def reg (m : MatOp) (i : Nat) : Nat := (m.regs.getD i 0).toNat
def aBase (m : MatOp) : Nat := m.reg 0
def aStride (m : MatOp) : Nat := m.reg 1 % 65536
def aScale (m : MatOp) : Nat := m.reg 1 / 65536 * 16
def bBase (m : MatOp) : Nat := m.reg 2
/-- The row stride of B, or TVS. -/
def bStride (m : MatOp) : Nat := m.reg 3 % 65536
/-- The scale base of B, or the index base. -/
def bAux (m : MatOp) : Nat := m.reg 3 / 65536 * 16
def cBase (m : MatOp) : Nat := m.reg 4
def cStride (m : MatOp) : Nat := m.reg 5 % 65536
/-- The entries of MRES. -/
def count (m : MatOp) : Nat := m.reg 3
def isRes (m : MatOp) : Bool := m.opc == 0x52
def isSparse (m : MatOp) : Bool := m.opc == 0x51
def bit (m : MatOp) (hi lo : Nat) : Nat := bitsOf m.ext.toNat hi lo
def rows (m : MatOp) : Nat := 16 * ((if m.isRes then m.bit 3 0 else m.bit 31 28) + 1)
def cols (m : MatOp) : Nat := 16 * (m.bit 27 24 + 1)
def depth (m : MatOp) : Nat := 8 * (m.bit 23 19 + 1)
def at_ (m : MatOp) : Nat := if m.isRes then m.bit 6 4 else m.bit 18 16
def bt (m : MatOp) : Nat := m.bit 15 13
def zeroC (m : MatOp) : Bool := !m.isRes && m.ext.getLsbD 12
def scaled (m : MatOp) : Bool := !m.isRes && m.ext.getLsbD 11
def pat (m : MatOp) : Nat := m.bit 10 9
def isInt (m : MatOp) : Bool := m.at_ == 4
def group (m : MatOp) : Nat := codeGroup m.at_
/-- TIS of R406 for the operation's K and pattern. -/
def indexStride (m : MatOp) : Nat := roundUp (m.depth * patSlots m.pat / patRun m.pat / 2) 16
/-- Bytes from the first to the last byte of C. -/
def cSpan (m : MatOp) : Nat :=
  if m.isRes then m.rows * m.cStride else (m.rows - 1) * m.cStride + 4 * m.cols

end MatOp

/-! ## The checks at issue (R389) -/

/-- Check 2: the types, PAT and the fields that must be zero. -/
def shapeBad (m : MatOp) : Bool :=
  if m.isRes then codeClass m.at_ == 0 || m.aScale != 0 || m.reg 5 / 65536 != 0
  else
    codeClass m.at_ == 0 || codeClass m.at_ != codeClass m.bt || m.bit 8 0 != 0 ||
    (if m.isSparse then m.pat == 0 else m.pat != 0) || m.depth % m.group != 0 ||
    (m.isSparse && m.depth % patRun m.pat != 0) ||
    (m.scaled && (m.isSparse || codeClass m.at_ == 1 || m.at_ == 4 || m.depth % 32 != 0)) ||
    (!m.scaled && m.aScale != 0) || m.reg 5 / 65536 != 0 ||
    decide (m.cStride < 4 * m.cols)

/-- Check 3: the bases and the strides, each with what is reported. -/
def alignBad (m : MatOp) : Option Nat :=
  let bases := [m.aBase, m.bBase, m.cBase] ++
    (if m.scaled then [m.aScale, m.bAux] else if m.isSparse then [m.bAux] else [])
  let strides := [(m.aStride, m.aBase), (m.cStride, m.cBase)] ++ (if m.isRes then [] else [(m.bStride, m.bBase)])
  match bases.find? (fun b => b % 64 != 0) with
  | some b => some b
  | none => (strides.find? (fun p => p.1 % 16 != 0)).map (·.2)

/-- The spans of an operation: space, base, length (R389, R410). -/
def opSpans (m : MatOp) : List (Nat × Nat × Nat) :=
  if m.isRes then
    [(2, m.aBase, m.rows * m.aStride), (3, m.cBase, m.rows * m.cStride), (1, m.bBase, 8 * m.count)]
  else
    [(2, m.aBase, (m.rows - 1) * m.aStride + codeBytes m.at_ m.depth)] ++
    (if m.isSparse then [(1, m.bBase, m.cols * m.bStride), (1, m.bAux, m.cols * m.indexStride)]
     else [(1, m.bBase, (m.cols - 1) * m.bStride + codeBytes m.bt m.depth)]) ++
    [(3, m.cBase, m.cSpan)] ++
    (if m.scaled then [(2, m.aScale, 16 * m.rows), (1, m.bAux, 16 * m.cols)] else [])

/-- Check 4: a span that passes its allocation. -/
def spanBad (n : NodeCopy) (m : MatOp) : Option Nat :=
  if m.isRes && decide (512 < m.count) then some m.bBase
  else ((opSpans m).find? (fun p => p.2.2 != 0 && decide (n.alloc p.1 < p.2.1 + p.2.2))).map (·.2.1)

/-- The checks of R389 after decoding. -/
def opFault (n : NodeCopy) (m : MatOp) : Option AccFault :=
  if shapeBad m then some { code := 1 }
  else match alignBad m with
    | some a => some { code := 3, lo := BitVec.ofNat 32 a }
    | none => (spanBad n m).map (fun a => { code := 4, lo := BitVec.ofNat 32 a })

/-! ## Issuing -/

/-- Whether a racing write to a chunk has still more of it to write, so that the chunk is not all new yet (R56, R141, R480): lanes of the
cohort have words to issue, or the tile command has still to land there. -/
def OldBytes.unfinished (s : State) (g : Group) (e : OldBytes) : Bool :=
  decide ((dedup (e.cells.map (·.1))).length < 64) && (match e.writer with
    | .lanes c => (lookup s.cohorts c).any (fun co => !co.laneQ.isEmpty)
    | .tile st t => (if st then g.storer else g.loader).slots.any (fun p => p.2.ticket.toNat == t && p.2.landsOn e.space e.chunk))

/-- Whether a racing write still counts for an operation that is issued now: one of lanes does, and one of a tile command while it is
unfinished (R128 item 2). -/
def OldBytes.stands (s : State) (g : Group) (e : OldBytes) : Bool :=
  match e.writer with
  | .lanes _ => true
  | .tile _ _ => e.unfinished s g

/-- MMA, MMAS and MRES (R387, R388, R397): the operation enters the engine, and its regions of CBUF are locked. -/
def issueOp (s : State) (opc : Nat) (d a b : SReg) (ext : Word) (len : Nat) : Out :=
  let rs := pairRegs a ++ pairRegs b ++ pairRegs d
  issueS s { regs := rs, reads := rs, len := len } (fun s x =>
    let m : MatOp := { c := x.c, opc := opc, regs := rs.map x.co.reg, ext := ext, ix := x.co.openOps % 256,
                       batch := x.co.lcom + 1, old := x.g.racy.filter (·.stands s x.g) }
    if !x.co.heldOps.isEmpty then .fault s { code := 1 }
    else match opFault x.node m with
      | some f => .fault s f
      | none =>
        if Config.engineOps ≤ (s.core x.core).engine.length then .wait s
        else
          let s := s.onCore x.core (fun C => { C with engine := C.engine ++ [m] })
          .done (s.onCohort x.c (fun co =>
            { co with openOps := co.openOps + 1,
                      locks := co.locks ++ (regionsOf m.cBase m.cSpan).map (fun r => (m.batch, r)) })) .seq)

/-- MMA (R388, R390). -/
def execMma (d a b : SReg) (ext : Word) (s : State) : Out := issueOp s 0x50 d a b ext 2
/-- MMAS (R409). -/
def execMmas (d a b : SReg) (ext : Word) (s : State) : Out := issueOp s 0x51 d a b ext 2
/-- MRES (R410). -/
def execMres (d a b : SReg) (at3 : BitVec 3) (mb : BitVec 4) (s : State) : Out :=
  issueOp s 0x52 d a b ((0 : BitVec 25) ++ at3 ++ mb) 1

/-! ## Batches -/

/-- MCOMMIT (R391). -/
def execMcommit (d : SReg) (s : State) : Out :=
  issueS s { regs := [d.toNat] } (fun s x =>
    if !x.co.heldOps.isEmpty then .fault s { code := 1 }
    else if Config.openBatches ≤ (x.co.lcom - x.co.lcpl).toNat then .wait s
    else .done (s.onCohort x.c (fun co =>
      { co with lcom := co.lcom + 1, openOps := 0 }.setReg d.toNat (co.lcom + 1))) .seq)

/-- The batch that MWAIT waits for (R393). -/
def waitBatch (co : Cohort) (b : Word) : Word := if (co.lcom - b).toInt < 0 then co.lcom else b

/-- MWAIT (R393, R394): a report traps, and clears, once the lane queue has drained (R183). -/
def execMwait (a : SReg) (s : State) : Out :=
  issueS s { regs := [a.toNat], reads := [a.toNat] } (fun s x =>
    let b := waitBatch x.co (x.co.reg a.toNat)
    if !x.co.heldOps.isEmpty then .fault s { code := 1 }
    else if (x.co.lcpl - b).toInt < 0 then .wait (parkIssued s x (.batch b))
    else match x.co.frep with
      | none => .done s .seq
      | some (n, code, ix) =>
        if (b - n).toInt < 0 then .done s .seq
        else if !x.co.laneIdle then .wait s
        else
          let s := s.onCohort x.c (fun co => { co with frep := none })
          .wait (faultCohort s x.c { code := code, src := 4, xpc := x.co.spc, lo := n, hi := BitVec.ofNat 32 ix }))

/-- MFENCE (R56, R128, R395): every later operation reads what the lanes of the group have written before. -/
def execMfence (s : State) : Out :=
  issueS s { join := true } (fun s x =>
    .done (s.onGroup x.co.grp (fun g => { g with racy := g.racy.filter (fun r => match r.writer with | .lanes _ => false | .tile _ _ => true) })) .seq)

/-- MRESUME (R401). -/
def execMresume (s : State) : Out :=
  issueS s {} (fun s x =>
    if Config.engineOps < (s.core x.core).engine.length + x.co.heldOps.length then .wait s
    else
      let s := s.onCore x.core (fun C => { C with engine := C.engine ++ x.co.heldOps })
      .done (s.onCohort x.c (fun co => { co with heldOps := [] })) .seq)

/-- The item of MSTAT (R396). -/
def matStatus (co : Cohort) (item : Nat) : Word :=
  match item with
  | 0 => co.lcpl
  | 1 => co.lcom
  | 2 => match co.frep with
    | none => 0
    | some (n, code, ix) => BitVec.ofNat 32 (code * 2 ^ 24 + n.toNat % 2 ^ 16 * 2 ^ 8 + ix % 256)
  | _ => BitVec.ofNat 32 co.heldOps.length

/-- MSTAT (R396). -/
def execMstat (d : SReg) (item : BitVec 7) (s : State) : Out :=
  issueReg s [] d (fun co => matStatus co item.toNat)

/-! ## What a step reads (R56, R259) -/

/-- The blocks of columns of an operation (R397). -/
def MatOp.colBlocks (m : MatOp) : Nat := (m.cols + 31) / 32
/-- Whether an operation has no step left. -/
def MatOp.finished (m : MatOp) : Bool :=
  m.bad.isSome || (if m.isRes then decide (m.count ≤ m.ent) else decide (m.rows / 16 ≤ m.mb))
/-- The rows of the current block. -/
def MatOp.blockRows (m : MatOp) : List Nat := (List.range 16).map (16 * m.mb + ·)
/-- The columns of the current block. -/
def MatOp.blockCols (m : MatOp) : List Nat := ((List.range 32).map (32 * m.nb + ·)).filter (· < m.cols)
/-- Slots of a row in one K-group of a term (R409). -/
def MatOp.groupSlots (m : MatOp) : Nat := m.group * patSlots m.pat / patRun m.pat

/-- The place of A's elements of a row in the current K-group. -/
def MatOp.aAt (m : MatOp) (r : Nat) : Nat := m.aBase + r * m.aStride + codeBytes m.at_ (m.group * m.g)
/-- The place of B's elements, or slots, of a row in the current K-group. -/
def MatOp.bAt (m : MatOp) (n : Nat) : Nat :=
  m.bBase + n * m.bStride + codeBytes m.bt (if m.isSparse then m.groupSlots * m.g else m.group * m.g)
/-- The place of the indices of a row in the current K-group. -/
def MatOp.ixAt (m : MatOp) (n : Nat) : Nat := m.bAux + n * m.indexStride + m.groupSlots * m.g / 2
/-- The place of the scale of a row's current 32 elements. -/
def MatOp.scaleAt (m : MatOp) (base r : Nat) : Nat := base + 16 * r + m.group * m.g / 32
/-- The place of an entry of MRES. -/
def MatOp.entryAt (m : MatOp) : Nat := m.bBase + 8 * m.ent
/-- The place of a value of C. -/
def MatOp.cAt (m : MatOp) (r n : Nat) : Nat := m.cBase + r * m.cStride + 4 * n

/-- The operand ranges that a step of MMA or MMAS reads: space, offset, length. -/
def stepRanges (m : MatOp) : List (Nat × Nat × Nat) :=
  m.blockRows.map (fun r => (2, m.aAt r, codeBytes m.at_ m.group)) ++
  m.blockCols.map (fun n => (1, m.bAt n, codeBytes m.bt (if m.isSparse then m.groupSlots else m.group))) ++
  (if m.isSparse then m.blockCols.map (fun n => (1, m.ixAt n, m.groupSlots / 2)) else []) ++
  (if m.scaled then m.blockRows.map (fun r => (2, m.scaleAt m.aScale r, 1)) ++
    m.blockCols.map (fun n => (1, m.scaleAt m.bAux n, 1)) else [])

/-- The ranges of C that a step of MMA or MMAS reads. -/
def stepCRanges (m : MatOp) : List (Nat × Nat × Nat) :=
  if m.zeroC && m.g == 0 then [] else m.blockRows.map (fun r => (3, m.cAt r (32 * m.nb), 4 * m.blockCols.length))

/-- Bytes of a chunk with racing writes undone. -/
def undo (es : List OldBytes) (k : Nat) (b : List Byte) : List Byte :=
  let cs := es.flatMap (·.cells)
  (List.range 64).map (fun i => (lastCell cs (k + i)).getD (b.getD i 0))

/-- Of the writes that race with a read of a chunk, those that the read comes before: for each one a free choice, but that an unfinished
one has not written its chunk whole, which then reads as before it (R56). -/
def drawOld (g : Group) : State → List OldBytes → State × List OldBytes
  | s, [] => (s, [])
  | s, e :: r =>
    let (d, s') := s.drawn
    let x := drawOld g s' r
    (x.1, if Config.freeChunkNew d && !e.unfinished s g then x.2 else e :: x.2)

/-- Whether a racing write is to a chunk. -/
def OldBytes.at_ (e : OldBytes) (p : Nat × Nat) : Bool := e.space == p.1 && e.chunk == p.2

/-- A chunk of ABUF or WBUF read by an operation for the first time. -/
def seeChunk (g : Group) (acc : State × MatOp) (p : Nat × Nat) : State × MatOp :=
  if acc.2.seen.any (fun e => e.1 == p.1 && e.2.1 == p.2) then acc
  else
    let (s, es) := drawOld g acc.1 (acc.2.old.filter (·.at_ p))
    (s, { acc.2 with seen := acc.2.seen ++ [(p.1, p.2, undo es p.2 (g.read p.1 p.2 64))], old := acc.2.old.filter (fun e => !e.at_ p) })

/-- A chunk of CBUF read by an operation: each racing write is read as done or as undone from then on. -/
def seeC (g : Group) (acc : State × MatOp) (k : Nat) : State × MatOp :=
  let open_ := fun e : OldBytes => e.at_ (3, k) && !e.decided
  match acc.2.old.filter open_ with
  | [] => acc
  | es =>
    let (s, olds) := drawOld g acc.1 es
    (s, { acc.2 with old := acc.2.old.filter (fun e => !open_ e) ++ olds.map (fun e => { e with decided := true }) })

/-- Ranges read by an operation. -/
def seeRanges (g : Group) (acc : State × MatOp) (rs : List (Nat × Nat × Nat)) : State × MatOp :=
  (rs.flatMap (fun r => (chunksOf r.2.1 r.2.2).map (fun k => (r.1, k)))).foldl (seeChunk g) acc

/-- Ranges of CBUF read by an operation. -/
def seeCRanges (g : Group) (acc : State × MatOp) (rs : List (Nat × Nat × Nat)) : State × MatOp :=
  (dedup (rs.flatMap (fun r => chunksOf r.2.1 r.2.2))).foldl (seeC g) acc

/-- A value of C as the operation reads it. -/
def viewC (g : Group) (m : MatOp) (off : Nat) : Nat :=
  let cs := (m.old.filter (fun e => e.space == 3 && e.decided)).flatMap (·.cells)
  leNat ((List.range 4).map (fun i => (lastCell cs (off + i)).getD (get 0 g.cb (off + i))))

/-- n bytes as the operation has read them. -/
def viewBytes (m : MatOp) (sp off n : Nat) : List Byte :=
  (List.range n).map (fun i =>
    match m.seen.find? (fun e => e.1 == sp && e.2.1 == (off + i) / 64 * 64) with
    | some e => e.2.2.getD ((off + i) % 64) 0
    | none => 0)

/-! ## The arithmetic of a step -/

/-- Element i of a byte string of a type code, as bits. -/
def rawElem (t : Nat) (b : List Byte) (i : Nat) : Nat :=
  if codeBits t == 4 then (b.getD (i / 2) 0).toNat / 16 ^ (i % 2) % 16
  else leNat ((b.drop (i * (codeBits t / 8))).take (codeBits t / 8))

/-- A product of two elements: as a value, none for 0 times an infinity. -/
def elemProduct (ta tb a b : Nat) : Option FV := mulExact (unpackF (codeFmt ta) a) (unpackF (codeFmt tb) b)

/-- A value times 2^k. -/
def scaleFV (v : FV) (k : Int) : FV := match v with | .fin n m e => .fin n m (e + k) | v => v

/-- A product under its two E8M0 scales (R245, R259). -/
def scaledProduct (p : Option FV) (sa sb : Nat) : Option FV :=
  if sa == 255 || sb == 255 then some (.nan true) else p.map (fun v => scaleFV v ((sa : Int) + sb - 254))

/-- Which elements of A and B meet in a K-group: pairs of element numbers. -/
def groupPairs (m : MatOp) (n : Nat) : List (Nat × Nat) :=
  if m.isSparse then
    let ix := viewBytes m 1 (m.ixAt n) (m.groupSlots / 2)
    (List.range m.groupSlots).filterMap (fun i =>
      let nib := (ix.getD (i / 2) 0).toNat / 16 ^ (i % 2) % 16
      if 8 ≤ nib then some (i / patSlots m.pat * patRun m.pat + nib % patRun m.pat, i) else none)
  else (List.range m.group).map (fun i => (i, i))

/-- The new accumulator of an element, and its flags (R259, R409). -/
def newAcc (m : MatOp) (acc r n : Nat) : Nat × Sticky :=
  let a := viewBytes m 2 (m.aAt r) (codeBytes m.at_ m.group)
  let b := viewBytes m 1 (m.bAt n) (codeBytes m.bt (if m.isSparse then m.groupSlots else m.group))
  let ps := groupPairs m n
  if ps.isEmpty then (acc, 0)
  else if m.isInt then
    (lowBits (ps.foldl (fun t p => t + sext (rawElem 4 a p.1) 8 * sext (rawElem 4 b p.2) 8) (sext acc 32)) 32, 0)
  else
    let sa := leNat (viewBytes m 2 (m.scaleAt m.aScale r) 1)
    let sb := leNat (viewBytes m 1 (m.scaleAt m.bAux n) 1)
    accumulate acc (ps.foldl (fun t p =>
      let v := elemProduct m.at_ m.bt (rawElem m.at_ a p.1) (rawElem m.bt b p.2)
      t.add (if m.scaled then scaledProduct v sa sb else v)) {})

/-- The accumulator of an element before a step. -/
def oldAcc (g : Group) (m : MatOp) (first : Bool) (r n : Nat) : Nat :=
  if first && m.zeroC then 0 else viewC g m (m.cAt r n)

/-- Accumulators written, and the flags of their roundings. -/
def writeAccs (g : Group) (m : MatOp) (cells : List (Nat × Nat × Nat × Sticky)) : Group × MatOp :=
  (cells.foldl (fun g c => g.write 3 (m.cAt c.1 c.2.1) (leBytes 4 c.2.2.1)) g,
   { m with flags := cells.foldl (fun f c => f ||| c.2.2.2) m.flags })

/-- The progress after a K-group step (R397). -/
def nextStep (m : MatOp) : MatOp :=
  if m.g + 1 < m.depth / m.group then { m with g := m.g + 1 }
  else if m.nb + 1 < m.colBlocks then { m with g := 0, nb := m.nb + 1, granted := false }
  else { m with g := 0, nb := 0, mb := m.mb + 1, granted := false }

/-- Whether one of some ranges holds an uncorrectable error. -/
def rangesBad (g : Group) (rs : List (Nat × Nat × Nat)) : Option Nat :=
  (rs.find? (fun r => g.rangeBad r.1 r.2.1 r.2.2)).map (·.2.1)

/-- An operation stopped by an uncorrectable error (R394). -/
def dataStop (s : State) (x : Ctx) (m : MatOp) (off : Nat) : State × Group × MatOp :=
  (addError s ⟨8, true, x.die, x.t, x.core, off⟩, x.g, { m with bad := some 7 })

/-- One K-group step of MMA or MMAS (R259, R390, R409). -/
def blockStep (s : State) (x : Ctx) (m : MatOp) : State × Group × MatOp :=
  match rangesBad x.g (stepRanges m ++ stepCRanges m) with
  | some off => dataStop s x m off
  | none =>
    let (s, m) := seeCRanges x.g (seeRanges x.g (s, m) (stepRanges m)) (stepCRanges m)
    let cells := m.blockRows.flatMap (fun r => m.blockCols.map (fun n =>
      let v := newAcc m (oldAcc x.g m (m.g == 0) r n) r n
      (r, n, v.1, v.2)))
    let (g, m) := writeAccs x.g m cells
    (s, g, nextStep m)

/-- One entry of MRES (R410). -/
def entryStep (s : State) (x : Ctx) (m : MatOp) : State × Group × MatOp :=
  match rangesBad x.g [(1, m.entryAt, 8)] with
  | some off => dataStop s x m off
  | none =>
    let (s, m) := seeRanges x.g (s, m) [(1, m.entryAt, 8)]
    let e := viewBytes m 1 m.entryAt 8
    let n := (e.getD 4 0).toNat
    let k := (e.getD 5 0).toNat
    let rs := List.range m.rows
    let aBytes := codeBits m.at_ / 8
    let aOff := fun r => m.aBase + r * m.aStride + k * codeBits m.at_ / 8
    if leNat (e.drop 6) != 0 || decide (m.cStride < 4 * n + 4) || decide (m.aStride * 8 < (k + 1) * codeBits m.at_) then
      (s, x.g, { m with bad := some 4 })
    else
      let aRanges := rs.map (fun r => (2, aOff r, max 1 aBytes))
      let cRanges := rs.map (fun r => (3, m.cAt r n, 4))
      match rangesBad x.g (aRanges ++ cRanges) with
      | some off => dataStop s x m off
      | none =>
        let (s, m) := seeCRanges x.g (seeRanges x.g (s, m) aRanges) cRanges
        let val := wordAt e 0
        let cells := rs.map (fun r =>
          let acc := viewC x.g m (m.cAt r n)
          let raw := viewBytes m 2 (aOff r) (max 1 aBytes)
          let a := if codeBits m.at_ == 4 then rawElem m.at_ raw (k % 2) else rawElem m.at_ raw 0
          let v : Nat × Sticky :=
            if m.isInt then (lowBits (sext acc 32 + sext a 8 * sext val 32) 32, 0)
            else accumulate acc (({} : ExactSum).add (mulExact (unpackF (codeFmt m.at_) a) (unpackF f32 val)))
          (r, n, v.1, v.2))
        let (g, m) := writeAccs x.g m cells
        (s, g, { m with ent := m.ent + 1, granted := false })

/-! ## The engine (R397, R399) -/

/-- The class of an operation's node; none once its launch ends (R415). -/
def opClass (s : State) (m : MatOp) : Option Nat :=
  match ctxOf s m.c with
  | some x => if x.l.ending.isSome then none else some x.node.class_
  | none => none

/-- The positions of the operations that have a step left, with their classes. -/
def readyOps (s : State) : Nat → List MatOp → List (Nat × Nat × MatOp)
  | _, [] => []
  | i, m :: r => match opClass s m with
    | some c => if m.finished then readyOps s (i + 1) r else (i, c, m) :: readyOps s (i + 1) r
    | none => readyOps s (i + 1) r

/-- The operation that the engine works on next (R399): the one in a granted block, another granted one, else the oldest of the
highest class. The operations of one cohort finish in issue order (R128 item 3, R397), so a grant waits for those before it. -/
def chooseOp (running : Option Nat) (ops : List (Nat × Nat × MatOp)) : Option (Nat × MatOp) :=
  let given := fun o : Nat × Nat × MatOp => o.2.2.granted && ops.all (fun p => decide (o.1 ≤ p.1) || p.2.2.c != o.2.2.c)
  match ((ops.find? (fun o => given o && running == some o.1)) <|> ops.find? given) with
  | some o => some (o.1, o.2.2)
  | none => match ops with
    | [] => none
    | o :: r => let b := r.foldl (fun a c => if a.2.1 < c.2.1 then c else a) o
                some (b.1, b.2.2)

/-- The ranges of CBUF that a step of an operation writes; `m'` is the operation after it. -/
def stepWrites (m m' : MatOp) : List (Nat × Nat) :=
  if m.isRes then (List.range m.rows).map (fun r => (m.cAt r ((viewBytes m' 1 m.entryAt 8).getD 4 0).toNat, 4))
  else m.blockRows.map (fun r => (m.cAt r (32 * m.nb), 4 * m.blockCols.length))

/-- Accumulators written race with nothing any more: every later read of them gets what the engine wrote (R128 item 3). -/
def accsWritten (s : State) (gid : Nat) (rs : List (Nat × Nat)) : State :=
  (onOps s gid (fun m => { m with old := forgetOld m.old none 3 rs })).onGroup gid (fun g => { g with racy := forgetOld g.racy none 3 rs })

/-- MATRIX_STEP (R397): one K-group step of one accumulator block, or one entry of MRES. -/
def execMatrixStep (core : Nat) (s : State) : Out :=
  let C := s.core core
  .next (match chooseOp C.running (readyOps s 0 C.engine) with
    | none => s
    | some (k, m) => match ctxOf s m.c with
      | none => s
      | some x =>
        let (t, g, m') := if m.isRes then entryStep s x m else blockStep s x m
        let t := (t.setGroup x.co.grp g).onCore core (fun C => { C with engine := updateAt C.engine k (fun _ => m'), running := some k })
        if m'.bad.isSome then t else accsWritten t x.co.grp (stepWrites m m'))

/-- ENGINE_WAIT_GRANT (R399): an operation that has waited 65,536 clk is granted its current block. -/
def execEngineWaitGrant (core k : Nat) (s : State) : Out :=
  .next (match (s.core core).engine[k]? with
    | none => s
    | some m =>
      if m.finished || m.since < Config.longClk || (s.core core).running == some k then s
      else s.onCore core (fun C => { C with engine := updateAt C.engine k (fun m => { m with granted := true, since := 0 }) }))

/-- Where the operation that the engine works on stands once some operations have left: none where it is one of them. -/
def keptPlace (l : List MatOp) (stays : MatOp → Bool) (running : Option Nat) : Option Nat :=
  running.bind (fun k => if (l[k]?).any stays then some (((l.take k).filter stays).length) else none)

/-- The engine of a core keeps the operations that stay; a granted one of them goes on with its block (R399). -/
def keepOps (C : Core) (stays : MatOp → Bool) : Core :=
  { C with engine := C.engine.filter stays, running := keptPlace C.engine stays C.running }

/-- The report of a batch fault (R394): the first fault of the lowest batch. -/
def reportBatch (co : Cohort) (m : MatOp) (code : Nat) : Option (Word × Nat × Nat) :=
  match co.frep with
  | some (n, c, i) => if (m.batch - n).toInt < 0 then some (m.batch, code, m.ix) else some (n, c, i)
  | none => some (m.batch, code, m.ix)

/-- An operation that has finished leaves the engine; its flags and its fault wait for its batch (R252, R394). -/
def finishOp (s : State) (core k : Nat) (m : MatOp) : State :=
  let s := s.onCore core (fun C =>
    { C with engine := C.engine.eraseIdx k,
             running := match C.running with
               | some r => if r == k then none else if k < r then some (r - 1) else some r
               | none => none })
  s.onCohort m.c (fun co =>
    { co with bflags := co.bflags ++ [(m.batch, m.flags)],
              frep := match m.bad with | some code => reportBatch co m code | none => co.frep })

/-- MATRIX_OP_FINISH (R397): the first operation without a step left. -/
def execMatrixOpFinish (core : Nat) (s : State) : Out :=
  .next (match indexOf? MatOp.finished (s.core core).engine with
    | none => s
    | some k => match (s.core core).engine[k]? with
      | some m => finishOp s core k m
      | none => s)

/-- Whether an operation of a batch is in the engine or held. -/
def batchBusy (s : State) (x : Ctx) (b : Word) : Bool :=
  (s.core x.core).engine.any (fun m => m.c == x.c && m.batch == b) || x.co.heldOps.any (fun m => m.batch == b)

/-- A batch completes (R55, R252, R392). -/
def completeBatch (s : State) (x : Ctx) (b : Word) : State :=
  let fl := (x.co.bflags.filter (fun f => f.1 == b)).foldl (fun a f => a ||| f.2) 0
  let s := s.onCohort x.c (fun co =>
    { co with lcpl := b, bflags := co.bflags.filter (fun f => f.1 != b), locks := co.locks.filter (fun l => l.1 != b),
              fpf := co.fpf ||| fl.setWidth 32 })
  if x.co.ended then
    let s := s.onLaunch x.slot (fun l => { l with flags := l.flags ||| fl })
    let s := match x.co.frep with
      | some f => if f.1 == b then endLaunch s x.slot 2 f.2.1 else s
      | none => s
    groupEnds s x.co.grp
  else s

/-- BATCH_COMPLETE (R392): the next batch of a cohort, when all its operations have finished. -/
def execBatchComplete (c : Nat) (s : State) : Out :=
  .next (match ctxOf s c with
    | none => s
    | some x =>
      let b := x.co.lcpl + 1
      if x.co.lcom == x.co.lcpl || batchBusy s x b then s else completeBatch s x b)

end Sys2Proof.Machine
end

