-- ==== Sys2Proof/Machine/ScalarMemory.lean ====
section
/-! DEFINITION. The scalar accesses to global memory and to the scratchpad (R294 to R298). -/

namespace Sys2Proof.Machine

/-! ## Loads -/

/-- The words that a loaded byte string fills, from register r on; a byte or a halfword is extended. -/
def loadVals (signed : Bool) (r : Nat) (b : List Byte) : List (Nat × Word) :=
  match b.length with
  | 8 => [(r, BitVec.ofNat 32 (leNat b)), (r + 1, BitVec.ofNat 32 (leNat (b.drop 4)))]
  | n => [(r, if signed then BitVec.ofInt 32 (sext (leNat b) (8 * n)) else BitVec.ofNat 32 (leNat b))]

/-- A scalar load issued: what it read is on its way to its registers (R281, R295), or F_DATA is (R102). -/
def startLoad (s : State) (x : Ctx) (va : Nat) (p : Xlat) (n : Nat) (signed : Bool) (d : SReg) (useL1 acq : Bool) : State :=
  let s := beforeRead s x.core x.t x.c false p.mt ((List.range n).map (p.pa + ·))
  let (s, b) := loadBytes s x.core x.c x.t va p n useL1
  let (tag, s) := freshId s
  let base : Pending := { tag := tag, scalar := true, regs := if n == 8 then pairRegs d else [d.toNat],
                          path := pathOf s p.pa, spc := x.co.spc, va := BitVec.ofNat 64 va, acq := acq }
  let pend := match b with
    | some b => { base with vals := loadVals signed d.toNat b }
    | none => { base with bad := some (badData base base.va) }
  s.onCohort x.c (fun co => { co with pend := co.pend ++ [pend] })

/-- A scalar load (R294, R295). -/
def scalarLoad (s : State) (d a : SReg) (imm : BitVec 13) (n : Nat) (signed : Bool) : Out :=
  issueS s { regs := pairRegs a ++ (if n == 8 then pairRegs d else [d.toNat]), reads := pairRegs a, rd := true } (fun s x =>
    let va := (x.co.pair a.toNat + imm.signExtend 64).toNat
    match checkAccess s x.core x.t va n n .read with
    | .error f => .fault s f
    | .ok p => .done (startLoad s x va p n signed d true false) .seq)

/-- LD.B32 (R294). -/
def execLdB32 (d a : SReg) (imm : BitVec 13) (s : State) : Out := scalarLoad s d a imm 4 false
/-- LD.B64 (R294). -/
def execLdB64 (d a : SReg) (imm : BitVec 13) (s : State) : Out := scalarLoad s d a imm 8 false
/-- LD.N8 (R294). -/
def execLdN8 (d a : SReg) (imm : BitVec 13) (s : State) : Out := scalarLoad s d a imm 1 false
/-- LD.I8 (R294). -/
def execLdI8 (d a : SReg) (imm : BitVec 13) (s : State) : Out := scalarLoad s d a imm 1 true
/-- LD.N16 (R294). -/
def execLdN16 (d a : SReg) (imm : BitVec 13) (s : State) : Out := scalarLoad s d a imm 2 false
/-- LD.I16 (R294). -/
def execLdI16 (d a : SReg) (imm : BitVec 13) (s : State) : Out := scalarLoad s d a imm 2 true

/-! ## Stores -/

/-- The data of a store: the low n bytes of s[d], or the pair. -/
def storeData (co : Cohort) (d : SReg) (n : Nat) : List Byte :=
  leBytes n (if n == 8 then (co.pair d.toNat).toNat else (co.reg d.toNat).toNat)

/-- The registers of a store's data. -/
def storeRegs (d : SReg) (n : Nat) : List Nat := if n == 8 then pairRegs d else [d.toNat]

/-- A scalar store (R294, R295). -/
def scalarStore (s : State) (d a : SReg) (imm : BitVec 13) (n : Nat) : Out :=
  issueS s { regs := pairRegs a ++ storeRegs d n, reads := pairRegs a ++ storeRegs d n, wr := true } (fun s x =>
    let va := (x.co.pair a.toNat + imm.signExtend 64).toNat
    match checkAccess s x.core x.t va n n .write with
    | .error f => .fault s f
    | .ok p => .done (pushStore (countMisses s x.core x.t [va]) x.core x.c x.t p.mt false (cellsOf p.pa (storeData x.co d n))) .seq)

/-- ST.B32 (R294). -/
def execStB32 (d a : SReg) (imm : BitVec 13) (s : State) : Out := scalarStore s d a imm 4
/-- ST.B64 (R294). -/
def execStB64 (d a : SReg) (imm : BitVec 13) (s : State) : Out := scalarStore s d a imm 8
/-- ST.B8 (R294). -/
def execStB8 (d a : SReg) (imm : BitVec 13) (s : State) : Out := scalarStore s d a imm 1
/-- ST.B16 (R294). -/
def execStB16 (d a : SReg) (imm : BitVec 13) (s : State) : Out := scalarStore s d a imm 2

/-! ## Scratchpad -/

/-- The width and the signedness of LDSP's minors (R296). -/
def ldspForm (m : Nat) : Nat × Bool :=
  match m with | 0 => (1, false) | 1 => (1, true) | 2 => (2, false) | 3 => (2, true) | 4 => (4, false) | _ => (8, false)

/-- LDSP (R296): the value is written when it issues. -/
def execLdsp (d a b : SReg) (minor : BitVec 7) (s : State) : Out :=
  let n := (ldspForm minor.toNat).1
  issueS s { regs := a.toNat :: b.toNat :: storeRegs d n, reads := [a.toNat, b.toNat], rd := true } (fun s x =>
    let off := (x.co.reg a.toNat).toNat + (x.co.reg b.toNat).toNat
    match checkLocal x 0 off n n with
    | some f => .fault s f
    | none => match readLocal s x 0 off n with
      | .error (s, f) => .fault s f
      | .ok v => .done (s.onCohort x.c (fun co => co.setVals true (loadVals (ldspForm minor.toNat).2 d.toNat v))) .seq)

/-- STSP (R296): it passes the port after the cohort's earlier stores have their places in the store order, and its earlier reads
their values (R110, R111). -/
def execStsp (d a b : SReg) (minor : BitVec 7) (s : State) : Out :=
  let n := 2 ^ minor.toNat
  issueS s { regs := a.toNat :: b.toNat :: storeRegs d n, reads := a.toNat :: b.toNat :: storeRegs d n, wr := true } (fun s x =>
    let off := (x.co.reg a.toNat).toNat + (x.co.reg b.toNat).toNat
    match checkLocal x 0 off n n with
    | some f => .fault s f
    | none => .done ((settleCtx s x).onGroup x.co.grp (fun g => g.write 0 off (storeData x.co d n))) .seq)

/-! ## Ordered accesses -/

/-- LDO (R297): AR first waits until every earlier access is performed at the scope; the read is an acquire. -/
def execLdo (d a : SReg) (scope : BitVec 3) (w64 : Bool) (kind : BitVec 2) (s : State) : Out :=
  let n := if w64 then 8 else 4
  issueS s { regs := pairRegs a ++ storeRegs d n, reads := pairRegs a, join := true, rd := true } (fun s x =>
    let va := (x.co.pair a.toNat).toNat
    match checkAccess s x.core x.t va n n .read with
    | .error f => .fault s f
    | .ok p =>
      match (if kind == 3 then (if x.co.pend.isEmpty then release s x.core x.t x.c scope.toNat else none) else some s) with
      | none => .wait s
      | some s => .done (startLoad (acquire s x.core scope.toNat) x va p n false d false true) .seq)

/-- STO (R297): a release at the scope; AR in addition performs the store itself before any later read. -/
def execSto (d a : SReg) (scope : BitVec 3) (w64 : Bool) (kind : BitVec 2) (s : State) : Out :=
  let n := if w64 then 8 else 4
  issueS s { regs := pairRegs a ++ storeRegs d n, reads := pairRegs a ++ storeRegs d n, join := true, wr := true } (fun s x =>
    let va := (x.co.pair a.toNat).toNat
    match checkAccess s x.core x.t va n n .write with
    | .error f => .fault s f
    | .ok p =>
      match release s x.core x.t x.c scope.toNat true with
      | none => .wait s
      | some s =>
        let s := pushStore (countMisses s x.core x.t [va]) x.core x.c x.t p.mt false (cellsOf p.pa (storeData x.co d n))
        .done (if kind == 3 then settleStores (settleCtx s x) x.core ((List.range n).map (p.pa + ·)) else s) .seq)

/-! ## Atomics -/

/-- An atomic on its way to its home slice (R60, R77). -/
def sendAtomic (s : State) (core : Nat) (q : AtomReq) : State :=
  s.onCore core (fun C => { l1Drop C q.pa with atoms := C.atoms ++ [{ q with seq := C.seq }], seq := C.seq + 1 })

/-- ATOM (R298). -/
def execAtom (d a b : SReg) (w64 : Bool) (code : BitVec 4) (s : State) : Out :=
  let n := if w64 then 8 else 4
  let rd := pairRegs a ++ storeRegs b n ++ (if code == 9 then storeRegs d n else [])
  issueS s { regs := rd ++ storeRegs d n, reads := rd, rd := true, wr := true } (fun s x =>
    let va := (x.co.pair a.toNat).toNat
    let val := fun r : SReg => if w64 then x.co.pair r.toNat else (x.co.reg r.toNat).setWidth 64
    match checkLimited s x.core x.t va n n .readWrite noAtomics with
    | .error f => .fault s f
    | .ok p =>
      let (tag, s) := freshId (countMisses s x.core x.t [va])
      let pend : Pending := { tag := tag, scalar := true, regs := storeRegs d n, waits := 1, rmw := true, path := pathOf s p.pa,
                              spc := x.co.spc, va := BitVec.ofNat 64 va }
      let q : AtomReq := { c := x.c, tag := tag, t := x.t, pa := p.pa, va := BitVec.ofNat 64 va, code := code.toNat,
                           w64 := w64, a := if code == 9 then val d else val b, b := val b, keys := storeRegs d n }
      .done (sendAtomic (s.onCohort x.c (fun co => { co with pend := co.pend ++ [pend] })) x.core q) .seq)

end Sys2Proof.Machine
end

