-- ==== Sys2Proof/Machine/LaneMemory.lean ====
section
/-! DEFINITION. The memory opcodes of the lanes but for VSPAWN (R363 to R379, R382, R384). -/

namespace Sys2Proof.Machine

/-! ## Data of a lane -/

/-- The registers that a loaded byte string fills in a lane, and their values (R368). -/
def laneVals (k : LCtx) (lane : Nat) (b : List Byte) : List (Nat × Word) :=
  let n := b.length
  if n ≤ 2 then
    [(k.dkey 0 lane, if k.w.tyn == 1 then BitVec.ofInt 32 (sext (leNat b) (8 * n)) else BitVec.ofNat 32 (leNat b))]
  else (List.range (n / 4)).map (fun i => (k.dkey i lane, BitVec.ofNat 32 (wordAt b (4 * i))))

/-- The data of a store in a lane (R368). -/
def laneData (k : LCtx) (lane n : Nat) : List Byte :=
  if n ≤ 4 then leBytes n (k.dreg 0 lane).toNat
  else (List.range (n / 4)).flatMap (fun i => leBytes 4 (k.dreg i lane).toNat)

/-- A result of a lane word that is on its way. -/
def newPending (k : LCtx) (op tag : Nat) (path : Path) (va : Nat) : Pending :=
  { tag := tag, scalar := false, regs := laneWrites op k.w, path := path, spc := k.blk.spc, xlw := k.blk.next,
    dreg := k.w.d.toNat, va := BitVec.ofNat 64 va }

/-- A result added to a cohort's pending map (R178). -/
def addPending (s : State) (c : Nat) (p : Pending) : State := s.onCohort c (fun co => { co with pend := co.pend ++ [p] })

/-- The path of a word that touches several places: the widest. -/
def widestPath (s : State) (ps : List Piece) : Path :=
  if ps.any (fun p => pathOf s p.xl.pa == .remote) then .remote
  else if ps.any (fun p => pathOf s p.xl.pa == .system) then .system
  else .slice

/-- The first virtual address of a word's accesses. -/
def firstVa (ps : List Piece) : Nat := match ps with | p :: _ => p.va | [] => 0

/-- The bytes of pieces read in order; none where one of them holds an error, with its address. -/
def readPieces (s : State) (x : Ctx) (useL1 : Bool) : List Piece → State × Except Nat (List Byte)
  | [] => (s, .ok [])
  | p :: r =>
    match loadBytes (beforeRead s x.core x.t x.c true p.xl.mt ((List.range p.n).map (p.xl.pa + ·))) x.core x.c x.t p.va p.xl p.n useL1 false with
    | (s, none) => (s, .error p.va)
    | (s, some b) => match readPieces s x useL1 r with
      | (s, .error va) => (s, .error va)
      | (s, .ok bs) => (s, .ok (b ++ bs))

/-- The events of a word's reads: one for each page that misses, and one for each line that the L1D may hold (R383, R447). -/
def countReads (s : State) (k : LCtx) (useL1 : Bool) (ps : List Piece) : State :=
  let C := s.core k.x.core
  let lines := dedup ((ps.filter (fun p => useL1 && p.xl.mt == 0)).map (fun p => p.va / 64 * 64))
  let hits := lines.filter (fun va => (l1Line C k.x.t va).any (fun l => decide (s.clk - l.at_ ≤ Config.l1dClk)))
  countEvent (countEvent (countMisses s k.x.core k.x.t (ps.map (·.va))) k.x.t 8 hits.length) k.x.t 9 (lines.length - hits.length)

/-- What a load of the lanes reads: the values, and the lowest lane's bad address. -/
def readLanes (s : State) (k : LCtx) (useL1 : Bool) (ps : List Piece) : State × List (Nat × Word) × Option Nat :=
  k.act.foldl (fun acc l =>
    match readPieces acc.1 k.x useL1 (ps.filter (fun p => p.lane == l)) with
    | (s, .ok b) => (s, acc.2.1 ++ laneVals k l b, acc.2.2)
    | (s, .error va) => (s, acc.2.1, match acc.2.2 with | some v => some v | none => some va)) (countReads s k useL1 ps, [], none)

/-- The bytes of the pieces of a word. -/
def pieceBytes (ps : List Piece) : List Nat := ps.flatMap (fun p => (List.range p.n).map (p.xl.pa + ·))

/-! ## VLD and VST -/

/-- The reads of a local space, the values and the lowest bad offset. -/
def readSpace (s : State) (k : LCtx) (sp n : Nat) (f : Nat → List Byte → List (Nat × Word)) :
    State × List (Nat × Word) × Option Nat :=
  k.act.foldl (fun acc l =>
    let off := (k.ea 5 l).toNat
    match readLocal acc.1 k.x sp off n with
    | .ok b => (acc.1, acc.2.1 ++ f l b, acc.2.2)
    | .error (s, _) => (s, acc.2.1, match acc.2.2 with | some v => some v | none => some off)) (s, [], none)

/-- A load's values put on their way, or its F_DATA (R102). -/
def startLaneLoad (s : State) (k : LCtx) (op : Nat) (path : Path) (va : Nat) (vals : List (Nat × Word)) (bad : Option Nat)
    (acq : Bool := false) : State :=
  let (tag, s) := freshId s
  let p := { newPending k op tag path va with vals := vals, acq := acq }
  addPending s k.x.c { p with bad := bad.map (fun a => badData p (BitVec.ofNat 64 a)) }

/-- VLD (R367 to R369): with ORD 1 to 6 it is an acquire, in the scratchpad too (R105, R114). -/
def execVld (w : LaneWord) (s : State) : Out :=
  issueL s 0x80 w (fun s k =>
    let n := wdBytes w.wd
    let acq := decide (1 ≤ w.ord) && decide (w.ord ≤ 6)
    let after := fun s : State => if acq then acquire s k.x.core (w.ord - 1) else s
    if w.sm == 5 then
      match spaceFault s k 0 n n with
      | some f => .fault s f
      | none =>
        let r := readSpace s k 0 n (laneVals k)
        .done (after (startLaneLoad r.1 k 0x80 .core 0 r.2.1 r.2.2 acq))
    else match allPieces s k w.sm n n .read (fun _ => false) with
      | .error f => .fault s f
      | .ok ps =>
        let r := readLanes s k (decide (w.ord ≤ 2)) ps
        .done (after (startLaneLoad r.1 k 0x80 (widestPath s ps) (firstVa ps) r.2.1 r.2.2 acq)))

/-- The cells of a lane's pieces. -/
def layPieces : List Piece → List Byte → List Host.Cell
  | [], _ => []
  | p :: r, b => cellsOf p.xl.pa (b.take p.n) ++ layPieces r (b.drop p.n)

/-- The cells that a store of the lanes writes, lanes ascending (R108). -/
def laneCells (k : LCtx) (n : Nat) (ps : List Piece) : List Host.Cell :=
  k.act.flatMap (fun l => layPieces (ps.filter (fun p => p.lane == l)) (laneData k l n))

/-- The memory type under which cells are written. -/
def mtOf (ps : List Piece) (cs : List Host.Cell) : Nat :=
  match cs with
  | [] => 0
  | c :: _ => match ps.find? (fun p => p.xl.pa / 64 == c.1 / 64) with | some p => p.xl.mt | none => 0

/-- The stores of a lane word: one write request for each line (R383). -/
def sendStores (s : State) (k : LCtx) (ps : List Piece) (cs : List Host.Cell) : State :=
  (byLine cs).foldl (fun s r => pushStore s k.x.core k.x.c k.x.t (mtOf ps r) false r true) (countMisses s k.x.core k.x.t (ps.map (·.va)))

/-- VST (R367 to R369). -/
def execVst (w : LaneWord) (s : State) : Out :=
  issueL s 0x81 w (fun s k =>
    let n := wdBytes w.wd
    let held := fun s : State => if w.rel then release s k.x.core k.x.t k.x.c (w.ord - 1) true else some s
    if w.sm == 5 then
      match spaceFault s k 0 n n with
      | some f => .fault s f
      | none => match held s with
        | none => .wait s
        | some s => .done (portWrite s k.x 0 (k.act.map (fun l => ((k.ea 5 l).toNat, laneData k l n))))
    else match allPieces s k w.sm n n .write (fun _ => false) with
      | .error f => .fault s f
      | .ok ps => match held s with
        | none => .wait s
        | some s => .done (sendStores s k ps (laneCells k n ps)))

/-! ## Buffers and VLDT -/

/-- VLDB (R370). -/
def execVldb (w : LaneWord) (s : State) : Out :=
  issueL s 0x89 w (fun s k =>
    let n := wdBytes w.bwd
    match spaceFault s k w.am n n with
    | some f => .fault s f
    | none =>
      let r := readSpace s k w.am n (laneVals k)
      .done (startLaneLoad r.1 k 0x89 .core 0 r.2.1 r.2.2))

/-- VSTB (R370). -/
def execVstb (w : LaneWord) (s : State) : Out :=
  issueL s 0x8A w (fun s k =>
    let n := wdBytes w.bwd
    match spaceFault s k w.am n n with
    | some f => .fault s f
    | none => .done (portWrite s k.x w.am (k.act.map (fun l => ((k.ea 5 l).toNat, laneData k l n)))))

/-- The four words of lane j of a quad from its four rows (R371): e bytes an element. -/
def transposed (rows : List (List Byte)) (e j : Nat) : List Byte :=
  let cols := 16 / e / 4
  (List.range cols).flatMap (fun t => rows.flatMap (fun r => (r.drop ((j * cols + t) * e)).take e))

/-- The 16 bytes of a lane's row: zero where the lane is not active. -/
def rowOf (rows : List (Nat × List Byte)) (l : Nat) : List Byte := (lookup rows l).getD (List.replicate 16 0)

/-- VLDT (R371). -/
def execVldt (w : LaneWord) (s : State) : Out :=
  issueL s 0x88 w (fun s k =>
    match spaceFault s k 0 16 16 with
    | some f => .fault s f
    | none =>
      let r := readSpace s k 0 16 (fun _ _ => [])
      let g := (lookup s.groups k.x.co.grp).getD k.x.g
      let rows := k.act.map (fun l => (l, g.read 0 (k.ea 5 l).toNat 16))
      let vals := k.act.flatMap (fun l =>
        let b := transposed ((List.range 4).map (fun i => rowOf rows (l / 4 * 4 + i))) (2 ^ w.am) (l % 4)
        (List.range 4).map (fun i => (k.dkey i l, BitVec.ofNat 32 (wordAt b (4 * i)))))
      let vals := if r.2.2.isSome then [] else vals
      .done (startLaneLoad r.1 k 0x88 .core 0 vals r.2.2))

/-! ## Atomics and reductions -/

/-- The operation code of OPR and TY (R373). -/
def laneCodeOf (w : LaneWord) : Nat := (atomCode w.opr w.tyn).getD 15

/-- A data operand of 32 or 64 bits of a lane: D. -/
def dataOperand (k : LCtx) (w64 : Bool) (l : Nat) : Dword :=
  if w64 then k.dreg 1 l ++ k.dreg 0 l else (k.dreg 0 l).setWidth 64

/-- The second operand: C. -/
def secondOperand (k : LCtx) (w64 : Bool) (l : Nat) : Dword := if w64 then k.src64 k.w.c l else (k.c l).setWidth 64

/-- The scope code of VATOM's SCOPE (R290, R372). -/
def atomScope (w : LaneWord) : Nat := w.mdn % 4 + 1
/-- VATOM's KIND (R372). -/
def atomKind (w : LaneWord) : Nat := w.mdn / 4 % 4

/-- The operands a and b of a lane's atomic (R374). -/
def atomOperands (k : LCtx) (l : Nat) : Dword × Dword :=
  let c := secondOperand k k.w.aw64 l
  (if laneCodeOf k.w == 9 then dataOperand k k.w.aw64 l else c, c)

/-- The keys that a lane's old word goes to. -/
def atomKeys (k : LCtx) (l : Nat) : List Nat := if k.w.aw64 then [k.dkey 0 l, k.dkey 1 l] else [k.dkey 0 l]

/-- VATOM in the scratchpad: lane after lane (R49, R374), once what its cohort has sent before has gone forward (R110, R111). -/
def padAtom (k : LCtx) (n : Nat) (acc : State × List (Nat × Word) × Option Nat) (l : Nat) :
    State × List (Nat × Word) × Option Nat :=
  let off := (k.ea 5 l).toNat
  match readLocal acc.1 k.x 0 off n with
  | .error (s, _) => (s, acc.2.1, match acc.2.2 with | some v => some v | none => some off)
  | .ok b =>
    let old := leNat b
    let ab := atomOperands k l
    let new := atomicWord (laneCodeOf k.w) (8 * n) old ab.1.toNat ab.2.toNat
    let vals := (List.range (n / 4)).map (fun i => (k.dkey i l, BitVec.ofNat 32 (old / 2 ^ (32 * i))))
    (acc.1.onGroup k.x.co.grp (fun g => g.write 0 off (leBytes n new)), acc.2.1 ++ vals, acc.2.2)

/-- The requests of a VATOM on their way to their home slices (R60, R77). -/
def sendAtoms (s : State) (k : LCtx) (ps : List Piece) (acq : Bool) : State :=
  let (tag, s) := freshId (countMisses s k.x.core k.x.t (ps.map (·.va)))
  let p := { newPending k 0x82 tag (widestPath s ps) (firstVa ps) with waits := ps.length, rmw := true, acq := acq }
  let reqs := ps.map (fun p =>
    let ab := atomOperands k p.lane
    ({ c := k.x.c, tag := tag, t := k.x.t, pa := p.xl.pa, va := BitVec.ofNat 64 p.va, code := laneCodeOf k.w,
       w64 := k.w.aw64, a := ab.1, b := ab.2, keys := atomKeys k p.lane, seq := (s.core k.x.core).seq } : AtomReq))
  (addPending s k.x.c p).onCore k.x.core (fun C =>
    { ps.foldl (fun C p => l1Drop C p.xl.pa) C with atoms := C.atoms ++ reqs, seq := C.seq + 1 })

/-- SM of a VATOM or VRED by its AM (R372). -/
def smOfWord (w : LaneWord) : Nat := smOfAm w.am w.aw64

/-- VATOM (R372 to R374). -/
def execVatom (w : LaneWord) (s : State) : Out :=
  issueL s 0x82 w (fun s k =>
    let n := if w.aw64 then 8 else 4
    let held := fun s : State => if 2 ≤ atomKind w then release s k.x.core k.x.t k.x.c (atomScope w) else some s
    let after := fun s : State => if atomKind w % 2 == 1 then acquire s k.x.core (atomScope w) else s
    if w.am == 2 then
      match spaceFault s k 0 n n with
      | some f => .fault s f
      | none => match held s with
        | none => .wait s
        | some s =>
          let r := k.act.foldl (padAtom k n) (settleCtx s k.x, [], none)
          .done (after (startLaneLoad r.1 k 0x82 .core 0 r.2.1 r.2.2 (atomKind w % 2 == 1)))
    else match allPieces s k (smOfWord w) n n .readWrite noAtomics with
      | .error f => .fault s f
      | .ok ps => match held s with
        | none => .wait s
        | some s =>
          let acq := atomKind w % 2 == 1
          let s := sendAtoms s k ps acq
          .done (after (if acq then settleCtx s k.x else s)))

/-- The combiner (R79): one reduction for each distinct virtual address, in the order of the lowest lanes. -/
def combine (k : LCtx) (seq : Nat) (ps : List Piece) : List RedReq :=
  let w := if k.w.aw64 then 64 else 32
  (dedup (ps.map (·.va))).filterMap (fun va =>
    match ps.filter (fun p => p.va == va) with
    | [] => none
    | p :: r =>
      let v := r.foldl (fun t q => atomicWord (laneCodeOf k.w) w t (dataOperand k k.w.aw64 q.lane).toNat 0)
        (dataOperand k k.w.aw64 p.lane).toNat
      some { c := k.x.c, t := k.x.t, pa := p.xl.pa, code := laneCodeOf k.w, w64 := k.w.aw64, val := BitVec.ofNat 64 v, seq := seq })

/-- VRED (R375). -/
def execVred (w : LaneWord) (s : State) : Out :=
  issueL s 0x83 w (fun s k =>
    let n := if w.aw64 then 8 else 4
    match allPieces s k (smOfWord w) n n .readWrite noAtomics with
    | .error f => .fault s f
    | .ok ps =>
      .done ((countMisses s k.x.core k.x.t (ps.map (·.va))).onCore k.x.core (fun C =>
        { ps.foldl (fun C p => l1Drop C p.xl.pa) C with reds := C.reds ++ combine k C.seq ps, seq := C.seq + 1 })))

/-- Whether VREDO may not add to a word (R87): an MT = 2 page, another package's address, or system space. -/
def notLocal (s : State) (p : Xlat) : Bool := p.mt == 2 || remotePa s p.pa || decide (placeOf s p.pa = .system)

/-- VREDO (R87, R376). -/
def execVredo (w : LaneWord) (s : State) : Out :=
  issueL s 0x84 w (fun s k =>
    match allPieces s k (smOfWord w) 4 4 .readWrite (notLocal s) with
    | .error f => .fault s f
    | .ok ps =>
      let es := ps.map (fun p =>
        ({ c := k.x.c, slot := k.x.slot, pa := p.xl.pa, ty := w.tyn - 3, key := k.c p.lane, val := k.dreg 0 p.lane } : RedoEntry))
      .done ((countMisses s k.x.core k.x.t (ps.map (·.va))).onCore k.x.core (fun C =>
        { ps.foldl (fun C p => l1Drop C p.xl.pa) C with redos := C.redos ++ es })))

/-! ## Futures -/

/-- The scope code of a VLDF or VSTF (R290, R377). -/
def futScope (w : LaneWord) : Nat := if w.ord == 0 then 3 else w.ord - 1

/-- The distinct cells of a word and the lanes that name each. -/
def cellsNamed (ps : List Piece) : List (Nat × List Nat) :=
  (dedup (ps.map (·.xl.pa))).map (fun pa => (pa, (ps.filter (fun p => p.xl.pa == pa)).map (·.lane)))

/-- Whether a VLDF request is held, or waits behind a held one. -/
def Pending.atRest (p : Pending) : Bool := p.future && p.answer.isNone && p.bad.isNone && p.waits == 0

/-- VLDF (R82, R377, R378): its requests share one place in the order of the core's requests. -/
def execVldf (w : LaneWord) (s : State) : Out :=
  issueL s 0x85 w (fun s k =>
    match allPieces s k w.sm 16 16 .read (fun p => p.mt == 2) with
    | .error f => .fault s f
    | .ok ps =>
      let sent := (cellsNamed ps).foldl (fun s c =>
        let (tag, s) := freshId s
        let va := match ps.find? (fun p => p.xl.pa == c.1) with | some p => p.va | none => 0
        let p := { newPending k 0x85 tag (pathOf s c.1) va with
          future := true, lanes := c.2, w64 := w.fw64, waits := if k.x.co.pend.any Pending.atRest then 0 else 1 }
        (addPending s k.x.c p).onCore k.x.core (fun C =>
          { l1Drop C c.1 with
              freqs := C.freqs ++ [{ c := k.x.c, tag := tag, pa := c.1, w64 := w.fw64, scope := futScope w, at_ := s.clk, seq := C.seq, va := va }] }))
        (countMisses s k.x.core k.x.t (ps.map (·.va)))
      .done (sent.onCore k.x.core (fun C => { C with seq := C.seq + 1 })))

/-- The 16 bytes that VSTF writes to a cell (R81, R379). -/
def fillBytes (k : LCtx) (lane : Nat) : List Byte := leBytes 8 (dataOperand k k.w.fw64 lane).toNat ++ leBytes 8 1

/-- VSTF (R377, R379): the highest lane that names a cell fills it. -/
def execVstf (w : LaneWord) (s : State) : Out :=
  issueL s 0x86 w (fun s k =>
    match allPieces s k w.sm 16 16 .write (fun p => p.mt == 2) with
    | .error f => .fault s f
    | .ok ps => match release s k.x.core k.x.t k.x.c (futScope w) with
      | none => .wait s
      | some s => .done ((cellsNamed ps).foldl (fun s c =>
          pushStore s k.x.core k.x.c k.x.t 0 true (cellsOf c.1 (fillBytes k (c.2.getLast?.getD 0))) true (some (whoIs s k.x.co k.blk.spc))) (countMisses s k.x.core k.x.t (ps.map (·.va)))))

/-! ## Prefetch -/

/-- VPREF (R382): it makes no access, and the module may drop it. -/
def execVpref (w : LaneWord) (s : State) : Out := issueL s 0x8B w (fun s _ => .done s)

end Sys2Proof.Machine
end

