-- ==== Sys2Proof/Machine/Returns.lean ====
section
/-! DEFINITION. Results that come back to a cohort, and a parked or faulting cohort that goes on (R178 to R186, R337, R378,
R424, R454, R457). -/

namespace Sys2Proof.Machine

/-- EXPORT_WRITE (R337, R341): the oldest issued export of a cohort writes its register. -/
def execExportWrite (c : Nat) (s : State) : Out :=
  .next (s.onCohort c (fun co => match co.exports with
    | [] => co
    | e :: r => { co.setReg e.reg e.val with exports := r }))

/-! ## Results -/

/-- A pending result leaves the map. -/
def dropPending (s : State) (c tag : Nat) : State :=
  s.onCohort c (fun co => { co with pend := co.pend.filter (fun p => p.tag != tag) })

/-- The requests of a result that have not reached their slices are gone. -/
def dropRequests (s : State) (core c tag : Nat) : State :=
  s.onCore core (fun C =>
    { C with atoms := C.atoms.filter (fun q => !(q.c == c && q.tag == tag)),
             freqs := C.freqs.filter (fun q => !(q.c == c && q.tag == tag)) })

/-- The latch entries of the registers that a result writes (R46). -/
def resultRegs (p : Pending) : List Nat := if p.scalar then [] else p.regs

/-- A result without an error writes its registers. -/
def finishPending (s : State) (x : Ctx) (p : Pending) : State :=
  let s := dropPending s x.c p.tag
  let s := latchWrote s x.core x.c (resultRegs p)
  s.onCohort x.c (fun co => co.deliver p)

/-- A result that is an error: the cohort traps (R102, R457), and what arrived is written with the trap's rollback (R419). While the
trap must wait, the result stays pending with its error. -/
def failPending (s : State) (x : Ctx) (p : Pending) (f : FaultInfo) : State :=
  let s := dropRequests s x.core x.c p.tag
  faultCohort (onPending s x.c p.tag (fun _ => { p with bad := some f, waits := 0 })) x.c f

/-- The error that an answer from outside gives. -/
def replyFault (p : Pending) (r : Reply) : Option FaultInfo :=
  match r with
  | .done => p.bad
  | .refused => some { badData p p.va with code := 5 }
  | .unreachable => some (badData p p.va)
  | .full => p.bad

/-- A pending result of a running cohort. -/
def pendingAt (s : State) (c k : Nat) : Option (Ctx × Pending) :=
  match ctxOf s c with
  | none => none
  | some x => if x.co.ended || x.l.ending.isSome then none else (x.co.pend[k]?).map (fun p => (x, p))

/-- The slice of another package has no room for a future request that comes to it, and answers it with status 1 (R82, R85): where the
request may come, and its cell is empty. -/
def refuseFuture (s : State) (x : Ctx) (p : Pending) : State :=
  let C := s.core x.core
  match C.freqs.find? (fun q => q.c == x.c && q.tag == p.tag && !q.away) with
  | none => s
  | some q =>
    if futureWaits s C q || cutOff s q.pa || cellState s q.pa != 0 then s
    else countEvent (answerFuture (leaves (dropRequests s x.core x.c p.tag) x.t q.pa 16 []) q 1 0) x.t 11 1

/-- LOAD_RETURN (R178, R281, R457): a result whose operations have all been performed. Only another package refuses, and not an
atomic that it has performed. A result from system space comes with its completion. -/
def execLoadReturn (c k : Nat) (reply : Reply) (s : State) : Out :=
  .next (match pendingAt s c k with
    | none => s
    | some (x, p) =>
      if p.path == .system then s
      else if reply == .done && (p.future || p.waits != 0) then s
      else if reply != .done && p.path != .remote then s
      else if reply == .full then (if p.future then refuseFuture s x p else s)
      else if reply != .done && p.rmw && p.waits == 0 then s
      else match replyFault p reply with
        | some f => failPending s x { p with vals := if reply == .done then p.vals else [] } f
        | none => finishPending s x p)

/-- SYSTEM_ACCESS_COMPLETION (R454): a PCIe completion, or its error. -/
def execSystemAccessCompletion (c k : Nat) (err : Bool) (s : State) : Out :=
  .next (match pendingAt s c k with
    | none => s
    | some (x, p) =>
      if p.path != .system || p.future || p.waits != 0 then s
      else match replyFault p (if err then .unreachable else .done) with
        | some f => failPending s x { p with vals := if err then [] else p.vals } f
        | none => finishPending s x p)

/-- VLDF_ANSWER (R378): with status 0 it is an acquire (R122). -/
def execVldfAnswer (c k : Nat) (s : State) : Out :=
  .next (match pendingAt s c k with
    | none => s
    | some (x, p) =>
      if !p.future then s
      else match p.bad, p.answer with
        | some f, _ => failPending s x p f
        | none, some (st, _) => finishPending (if st == 0 then acquire s x.core 3 else s) x p
        | none, none => s)

/-! ## Waits that end -/

/-- What a cohort parks on once its spawn is done (R181): a run that has ended waits for its results. -/
def Cohort.afterSpawn (co : Cohort) : Option Park := if co.runW.isEmpty && !co.lanesClear then some .results else none

/-- A cohort whose spawn is done leaves its park, but in a halted group (R427, R444). -/
def spawnDone (s : State) (c : Nat) : State :=
  match ctxOf s c with
  | none => s
  | some x =>
    if x.g.halt.isSome then s
    else holdParked (s.onCohort c (fun co => { co with park := co.afterSpawn, parkAt := s.clk })) c

/-- Whether what a parked cohort waits for has come (R181). -/
def waitOver (s : State) (x : Ctx) : Bool :=
  match x.co.park with
  | some .results => x.co.lanesClear
  | some (.barrier off p) => phaseDone (readBar x.g off).phase p.toNat
  | some (.batch b) => decide (0 ≤ (x.co.lcpl - b).toInt)
  | some (.page ids) => !(s.tenant x.t).faults.any (fun e => ids.contains e.id)
  | some .spawn => x.co.outbox.isEmpty
  | _ => false

/-- COHORT_WAKE (R181): not in a halted group (R444). -/
def execCohortWake (c : Nat) (s : State) : Out :=
  .next (match ctxOf s c with
    | none => s
    | some x =>
      if x.g.halt.isSome || x.l.ending.isSome || x.co.ended || !waitOver s x then s
      else if x.co.park == some .spawn then spawnDone s c
      else s.onCohort c (fun co =>
        { co with park := none, fault := match co.park with | some (.page _) => none | _ => co.fault }))

/-- STARVATION_LIFT (R186). -/
def execStarvationLift (c : Nat) (lane : Bool) (s : State) : Out :=
  .next (match ctxOf s c with
    | none => s
    | some x =>
      if lane then
        if Config.starvationClk ≤ x.co.waitL && !x.co.liftL then
          countEvent (s.onCohort c (fun co => { co with liftL := true })) x.t 15 1
        else s
      else if Config.starvationClk ≤ x.co.waitS && !x.co.liftS then
        countEvent (s.onCohort c (fun co => { co with liftS := true })) x.t 15 1
      else s)

/-- TRAP_ENTRY (R424): a fault that waited for the lane queue to drain traps, or a trapped cohort's turn comes. -/
def execTrapEntry (c : Nat) (s : State) : Out :=
  .next (match ctxOf s c with
    | none => s
    | some x =>
      if x.l.ending.isSome || x.co.ended || x.stopped then s
      else match x.co.park, x.co.fault with
        | some .handler, _ => if handlerTurn s x then enterHandler s c else s
        | some (.page _), _ => s
        | some .spawn, _ => s
        | _, some f => if (f.src == 1 && x.co.vout == 0) || x.co.laneIdle then trapEntry s x f else s
        | _, none => s)

end Sys2Proof.Machine
end

