-- ==== Sys2Proof/Machine/TileEngine.lean ====
section
/-! DEFINITION. The tile engines and the Planisher: a command starts, its rows complete, it stops or completes (R156 to R161,
R404 to R408). -/

namespace Sys2Proof.Machine

/-! ## Rows -/

namespace TileCmd

/-- The rows that a command has still to do come in this order: the first of them (R156, R161). -/
def firstOpen (c : TileCmd) : Nat := if c.descending then c.hinc - 1 else c.rowdone
/-- Whether every row is complete. -/
def allRows (c : TileCmd) : Bool := decide (c.nrows ≤ c.rowdone)
/-- The rows that must come before a row, and the row: those that are not complete (R156). -/
def upTo (c : TileCmd) (row : Nat) : List Nat :=
  if c.descending then [row]
  else ((List.range (row + 1 - c.rowdone)).map (c.rowdone + ·)).filter (fun j => !c.rowComplete j)
/-- Whether the engine may take a row now: inside the window of 64 rows, in processing order for an overlapped TCOPY. -/
def mayTake (c : TileCmd) (row : Nat) : Bool :=
  decide (row < c.nrows) && !c.rowComplete row && row % c.unit == 0 &&
  (if c.overlaps then row == c.firstOpen else decide (row < c.rowdone + 64))

/-- rowdone moved past complete rows. -/
def settleRows (fuel : Nat) (c : TileCmd) : TileCmd :=
  match fuel with
  | 0 => c
  | n + 1 =>
    if c.doneRows.contains c.rowdone then
      settleRows n { c with rowdone := c.rowdone + 1, doneRows := c.doneRows.filter (· != c.rowdone) }
    else c

/-- A row, or a band, complete (R156, R159, R161). -/
def markRow (c : TileCmd) (row : Nat) : TileCmd :=
  if c.descending then
    if row == 0 then { c with hinc := 0, rowdone := c.nrows } else { c with hinc := row }
  else
    settleRows 128 { c with doneRows := c.doneRows ++ (List.range c.unit).map (row + ·), held := erase c.held row,
                            early := c.early.filter (fun e => e.row != row) }

/-- The unit of a row, if it is open. -/
def openRow (c : TileCmd) (row : Nat) : Option OpenRow := c.early.find? (fun e => e.row == row / c.unit * c.unit)

/-- The rows that the engine translates together, in processing order: a window of up to 64 rows that are neither complete nor open (R33,
R161). -/
def window (c : TileCmd) : List Nat :=
  if c.descending then (List.range (min 64 c.hinc)).map (fun i => c.hinc - 1 - i)
  else ((List.range 64).map (c.rowdone + ·)).filter (fun i => decide (i < c.nrows) && !c.rowComplete i && (c.openRow i).isNone)

/-- The address of a row's index (R158). -/
def indexVa (c : TileCmd) (j : Nat) : Nat := (c.gb + 4 * j) % 2 ^ 64
/-- The global source row, or TST's destination row. -/
def globalRow (c : TileCmd) (i : Nat) : Nat :=
  if c.isTgath then lowBits (c.ga + (get 0 c.held i).toNat * c.gsa) 64 else c.rowA i

end TileCmd

/-- The physical pieces of n bytes at an address, or the fault (R14, R153, R157). -/
def tileXlat (s : State) (k : RvCtx) (va n align : Nat) (kd : AccessKind) : Except AccFault (List (Nat × Nat)) :=
  if 2 ^ 60 < va + n then .error (faultAt 2 va)
  else if va % align != 0 then .error (faultAt 3 va)
  else
    let rs : List (Except AccFault (Nat × Nat)) := (pieces va n).map (fun p =>
      (checkPage s k.g.core k.l.t p.1 p.2 kd).map (fun x => (x.pa, p.2)))
    match pickFault (rs.filterMap (fun r => match r with | .error f => some f | .ok _ => none)) with
    | some f => .error f
    | none => .ok (rs.filterMap (fun r => match r with | .ok p => some p | .error _ => none))

/-- As tileXlat, for a read: F_DATA at an uncorrectable line or at a package that cannot be reached (R102, R457). -/
def tileRead (s : State) (k : RvCtx) (va n align : Nat) : Except AccFault (List (Nat × Nat)) :=
  match tileXlat s k va n align .read with
  | .error f => .error f
  | .ok ps => match ps.find? (fun p => rangeBad s p.1 p.2) with
    | some p => .error { faultAt 7 va with pte := some p.1 }
    | none => if ps.any (fun p => cutOff s p.1) then .error (faultAt 7 va) else .ok ps

/-- The bytes of physical pieces, after the stores of the core's store order to them. The L1D gives up their lines (R59). -/
def tileFetch (s : State) (k : RvCtx) (ps : List (Nat × Nat)) : State × List Byte :=
  let s := settleStores s k.g.core (ps.flatMap (fun p => (List.range p.2).map (p.1 + ·)))
  let lines := ps.flatMap (fun p => (List.range ((p.1 % 64 + p.2 + 63) / 64)).map (fun i => p.1 + 64 * i))
  let s := s.onCore k.g.core (fun C => lines.foldl l1Drop C)
  (ps.foldl (fun s p => leaves s k.l.t p.1 p.2 []) s, ps.flatMap (fun p => readMem s p.1 p.2))

/-- The fault of the local bytes that a row reads: a locked region of CBUF, or an uncorrectable doubleword (R55, R40). -/
def localFault (s : State) (k : RvCtx) (sp off n : Nat) : Option AccFault :=
  if sp == 3 && regionLocked s k.gid off n then some (faultAt 8 off)
  else if k.g.rangeBad sp off n then some { faultAt 7 off with spot := some (if sp == 0 then 7 else 8, off) }
  else none

/-- The rotation table's bytes (R160). -/
def rotRange (c : TileCmd) : Nat × Nat := (c.rtb + 8 * c.np * c.dlt, 8 * c.np)

/-- The open rows whose source bytes a destination row overwrites: they are read before it is written (R161). -/
def hitRows (c : TileCmd) (row : Nat) : List Nat :=
  if !c.overlaps then []
  else (List.range c.nrows).filter (fun i => !c.rowComplete i && i != row &&
    decide (c.rowA i < c.rowB row + c.dstRow) && decide (c.rowB row < c.rowA i + c.rowb))

/-- The fault of one row (R157, R158, R160). A row whose destination overwrites another source row meets the faults of that row's read
too (R161, assumption 63). -/
def rowFault (s : State) (k : RvCtx) (c : TileCmd) (i : Nat) : Option AccFault :=
  let bad := fun r : Except AccFault (List (Nat × Nat)) => match r with | .error f => some f | .ok _ => none
  if c.isTgath && (lookup c.held i).isNone && !(c.held.any (fun p => p.1 == i)) then bad (tileRead s k (c.indexVa i) 4 4)
  else if c.isTst then
    pickFault ([bad (tileXlat s k (c.rowA i) c.rowb 16 .write), localFault s k c.spc (c.lo + i * c.ls) c.rowb].filterMap id)
  else if c.isTcopy then
    pickFault (((i :: hitRows c i).map (fun j => if (lookup c.srcs j).isSome then none else bad (tileRead s k (c.rowA j) c.rowb 16)) ++
      [bad (tileXlat s k (c.rowB i) c.dstRow 16 .write),
        if c.rotates then localFault s k 0 (rotRange c).1 (rotRange c).2 else none]).filterMap id)
  else bad (tileRead s k (c.globalRow i) c.rowb 16)

/-- The rows of a unit (R159). -/
def unitRows (c : TileCmd) (row : Nat) : List Nat := (List.range c.unit).map (row + ·)

/-- The first fault in processing order among the rows up to a unit that have not been issued. -/
def firstFault (s : State) (k : RvCtx) (c : TileCmd) (row : Nat) : Option AccFault :=
  ((c.upTo row ++ unitRows c row).filter (fun i => (c.openRow i).isNone)).findSome? (rowFault s k c)

/-! ## Indices of TGATH (R158) -/

/-- Every index up to a row that is not held is read and held, as far as the list can be read. -/
def holdIndices (k : RvCtx) : List Nat → State → TileCmd → State × TileCmd
  | [], s, c => (s, c)
  | j :: r, s, c =>
    if (lookup c.held j).isSome then holdIndices k r s c
    else match tileRead s k (c.indexVa j) 4 4 with
      | .error _ => (s, c)
      | .ok ps =>
        let (s, b) := tileFetch s k ps
        let s := if c.keepsLog then onRv s k (fun r => r.writeRam (0x10000 + c.ilog + 4 * j) b) else s
        holdIndices k r s { c with held := store c.held j (BitVec.ofNat 32 (leNat b)) }

/-! ## What a row does -/

/-- Element i of bytes at a width in bits. -/
def bitElem (bits : Nat) (b : List Byte) (i : Nat) : Nat :=
  if bits == 4 then (b.getD (i / 2) 0).toNat / 16 ^ (i % 2) % 16 else leNat ((b.drop (i * (bits / 8))).take (bits / 8))

/-- What a unit of a landing command writes to its local space: the row, or for TLDT the band's chunk of every local row (R154,
R159). -/
def landings (c : TileCmd) (row : Nat) (rows : List (List Byte)) : List (Nat × List Byte) :=
  if c.isTldt then
    (List.range c.tldtCols).map (fun j => (c.lo + j * c.ls + row * c.tldtBits / 8,
      leBytes 16 (packElems c.tldtBits (rows.map (fun b => bitElem c.tldtBits b j)))))
  else [(c.lo + row * c.ls, rows.headD [])]

/-- A conversion of TCOPY (R160). -/
def copyConvert (c : TileCmd) (ts td x : Nat) : Nat × Sticky := roundFV (tyFmt td) c.rm false false (unpackF (tyFmt ts) x)

/-- Elements packed into bytes. -/
def elemBytes (n : Nat) (es : List Nat) : List Byte := es.flatMap (leBytes n)

/-- The rotation of one row: new elements and flags (R160). `tab` holds the table's pairs. -/
def rotateRow (c : TileCmd) (ty : Nat) (tab : List Byte) (es : List Nat) : List Nat × Sticky :=
  let np := c.np
  let one := fun (i : Nat) =>
    let h := i / (2 * np)
    let o := i % (2 * np)
    let adj := decide (c.xf < 0x18)
    let p := if adj then o / 2 else o % np
    let second := if adj then o % 2 == 1 else decide (np ≤ o)
    let (a, b) := if adj then (2 * p, 2 * p + 1) else (p, np + p)
    let x := (copyConvert c ty 3 (es.getD (h * 2 * np + a) 0)).1
    let y := (copyConvert c ty 3 (es.getD (h * 2 * np + b) 0)).1
    let co := wordAt tab (8 * p)
    let si := wordAt tab (8 * p + 4)
    let u := if second then fmul f32 c.rm false x si else fmul f32 c.rm false x co
    let v := if second then fmul f32 c.rm false y co else fmul f32 c.rm false y si
    let r := if second then fadd f32 c.rm false u.1 v.1 else fsub f32 c.rm false u.1 v.1
    let w := if ty == 3 then (r.1, (0 : Sticky)) else roundFV (tyFmt ty) c.rm false false (unpackF f32 r.1)
    -- a signalling NaN of the source is an operand of both products
    let sig := if isSig (unpackF (tyFmt ty) (es.getD (h * 2 * np + a) 0)) || isSig (unpackF (tyFmt ty) (es.getD (h * 2 * np + b) 0))
               then flIV else 0
    (w.1, u.2 ||| v.2 ||| r.2 ||| w.2 ||| sig)
  let rs := (List.range es.length).map one
  (rs.map (·.1), rs.foldl (fun f r => f ||| r.2) 0)

/-- A source row transformed (R160). -/
def transformRow (c : TileCmd) (tab b : List Byte) : List Byte × Sticky :=
  match c.xfTypes with
  | some (ts, td) =>
    if c.xf == 0 then (b, 0)
    else
      let es := (List.range (c.rowb / c.srcBytes)).map (bitElem (8 * c.srcBytes) b)
      if c.rotates then
        let r := rotateRow c ts tab es
        (elemBytes c.dstBytes r.1, r.2)
      else
        let rs := es.map (copyConvert c ts td)
        (elemBytes c.dstBytes (rs.map (·.1)), rs.foldl (fun f r => f ||| r.2) 0)
  | none => (b, 0)

/-- The scope that a global write needs (R127). -/
def writeWide (s : State) (ps : List (Nat × Nat)) (w : Nat) : Nat :=
  ps.foldl (fun w p => match placeOf s p.1 with | .system => max w 5 | .remote _ => max w 4 | _ => w) w

/-- Whether bytes lie in another package's memory (R17). -/
def awayPa (s : State) (pa : Nat) : Bool := match placeOf s pa with | .remote _ => true | _ => false

/-- Bytes written to global memory by an engine (R127, R454, R457); lost: another package does not perform them. -/
def tileWrite (s : State) (k : RvCtx) (lost : Bool) (ps : List (Nat × Nat)) (b : List Byte) : State :=
  let pas := ps.flatMap (fun p => (List.range p.2).map (p.1 + ·))
  let s := settleStores s k.g.core pas
  (byLine (layOver ps b)).foldl (fun s cs =>
    let pa := match cs with | q :: _ => q.1 | [] => 0
    if cutOff s pa || lost && awayPa s pa then lostWrite s k.l.t
    else targetWrite (s.onCore k.g.core (fun C => l1Drop C pa)) k.g.core k.l.t cs) s

/-- The pieces of a row that does not fault. -/
def piecesOr (r : Except AccFault (List (Nat × Nat))) : List (Nat × Nat) := match r with | .ok ps => ps | .error _ => []

/-- Source rows of a TCOPY are read and held. -/
def holdRows (k : RvCtx) (rows : List Nat) (s : State) (c : TileCmd) : State × TileCmd :=
  rows.foldl (fun (a : State × TileCmd) i =>
    if (lookup a.2.srcs i).isSome then a
    else match tileRead a.1 k (a.2.rowA i) a.2.rowb 16 with
      | .error _ => a
      | .ok ps =>
        let r := tileFetch a.1 k ps
        (r.1, { a.2 with srcs := store a.2.srcs i r.2 })) (s, c)

/-- The source rows of a unit of a landing command, read. -/
def readUnit (s : State) (k : RvCtx) (c : TileCmd) (row : Nat) : State × List (List Byte) :=
  if c.isTldt then
    (unitRows c row).foldl (fun (acc : State × List (List Byte)) i =>
      let (s, b) := tileFetch acc.1 k (piecesOr (tileRead acc.1 k (c.rowA i) c.rowb 16))
      (s, acc.2 ++ [b])) (s, [])
  else
    let (s, b) := tileFetch s k (piecesOr (tileRead s k (c.globalRow row) c.rowb 16))
    (s, [b])

/-- The spans of a row's global accesses. -/
def rowSpans (c : TileCmd) (row : Nat) : List (Nat × Nat) :=
  if c.isTst then [(c.rowA row, c.rowb)] else if c.isTcopy then [(c.rowA row, c.rowb), (c.rowB row, c.dstRow)]
  else if c.isTldt then (unitRows c row).map (fun i => (c.rowA i, c.rowb)) else [(c.globalRow row, c.rowb)]

/-- The addresses of spans, one for each page. -/
def pageVas (spans : List (Nat × Nat)) : List Nat := spans.flatMap (fun p => (pieces p.1 p.2).map (·.1))

/-- A unit of a landing command issued: its rows are read, once, and land as they are from then on (R157). -/
def issueRow (s : State) (k : RvCtx) (c : TileCmd) (row : Nat) : State × TileCmd :=
  match c.openRow row with
  | some _ => (s, c)
  | none =>
    let r := readUnit (countMisses s k.g.core k.l.t (pageVas (rowSpans c row))) k c row
    (r.1, { c with early := c.early ++ [⟨row, chunks16 (landings c row r.2)⟩] })

/-- The bytes of a unit read and written, and the command with its flags and scope. -/
def moveRow (s : State) (k : RvCtx) (c : TileCmd) (row : Nat) (lost : Bool) : State × TileCmd :=
  let seen := fun s => countMisses s k.g.core k.l.t (pageVas (rowSpans c row))
  if c.isTst then
    let s := seen s
    let ps := piecesOr (tileXlat s k (c.rowA row) c.rowb 16 .write)
    let b := k.g.read c.spc (c.lo + row * c.ls) c.rowb
    (tileWrite s k lost ps b, { c with wide := writeWide s ps c.wide })
  else if c.isTcopy then
    let dst := piecesOr (tileXlat s k (c.rowB row) c.dstRow 16 .write)
    let (s, c) := holdRows k (row :: hitRows c row) (seen s) c
    let r := transformRow c (k.g.read 0 (rotRange c).1 (rotRange c).2) (get [] c.srcs row)
    (tileWrite s k lost dst r.1,
      { c with wide := writeWide s dst c.wide, flags := c.flags ||| r.2, srcs := erase c.srcs row })
  else
    let r := issueRow s k c row
    (countEvent (land r.1 k c c.spc ((r.2.openRow row).elim [] (·.chunks))) k.l.t 7 (c.rowb * c.unit), r.2)

/-! ## Counting on the barrier (R126, R154, R157) -/

/-- n bytes counted at a scope: the state, or the code with which the command stops (R157): F_BAR, or F_DATA where the object cannot be
read (R40, assumption 59). -/
def countBytes (s : State) (k : RvCtx) (c : TileCmd) (scope n : Nat) : Except Nat State :=
  if !c.be then .ok s
  else if barBad s k c.boff then .error 7
  else match lookup s.groups k.gid with
    | none => .ok s
    | some g => match landBar g c.boff s.clk (engineAgent k.st) scope n with
      | none => .error 12
      | some g => .ok (setBar s k c.boff (engineAgent k.st) g)

/-- A command stops at its barrier. -/
def stopAtBar (s : State) (k : RvCtx) (slot : Nat) (c : TileCmd) (code : Nat) : State :=
  stopCmd (if code == 7 then spotError s k 7 c.boff else s) k slot c code (if code == 7 then c.boff else 0)

/-- Whether a kind counts per row. -/
def countsRows (c : TileCmd) : Bool := c.kind == 0 || c.kind == 1 || c.kind == 3

/-- The faulting pages of some rows, in order, up to a row with a fault of another kind: row, address, page (R30, R33, assumption
75). `spans` are a row's accesses. -/
def faultingPages (fault : Nat → Option AccFault) (spans : Nat → List (Nat × Nat)) : List Nat → List (Nat × Nat × PageFault)
  | [] => []
  | i :: r => match fault i with
    | none => faultingPages fault spans r
    | some f =>
      if f.code != 6 then []
      else f.pages.map (fun p => (i, ((pageVas (spans i)).find? (fun v => v / 65536 * 65536 == p.va)).getD p.va, p)) ++
        faultingPages fault spans r

/-- The accesses of a row that has not been issued: its index, where that is not held, or its rows (R158, R161). -/
def rowReach (c : TileCmd) (i : Nat) : List (Nat × Nat) :=
  if c.isTgath && (lookup c.held i).isNone then [(c.indexVa i, 4)] else rowSpans c i ++ (hitRows c i).map (fun j => (c.rowA j, c.rowb))

/-- A wait whose entry has no answer. -/
def waitOpen (s : State) (k : RvCtx) (w : TileWait) : Bool := (s.tenant k.l.t).faults.any (fun e => e.id == w.id)

/-- A command waits on the entries of its faulting pages (R30, R33, R157): row, address, page of each; tqva shows the first address. -/
def waitPages (s : State) (k : RvCtx) (slot : Nat) (c : TileCmd) (ps : List (Nat × Nat × PageFault)) : State :=
  let r := ps.foldl (fun (a : State × List TileWait) p =>
    let (s, ids) := openEntries a.1 k.l.t k.g.core (if k.st then 3 else 2) [p.2.2]
    (s, a.2 ++ (ids.filter (fun i => !a.2.any (·.id == i))).map (fun i => ⟨i, p.1, BitVec.ofNat 64 p.2.1⟩)))
    (s, c.waits.filter (waitOpen s k))
  setCmd r.1 k slot { c with waits := r.2, tqva := match ps with | p :: _ => BitVec.ofNat 64 p.2.1 | [] => c.tqva }

/-- Whether a command still waits for the answer to one of its entries, or for the rows before one that was rejected (R33, R157). -/
def cmdWaits (s : State) (k : RvCtx) (c : TileCmd) : Bool := c.rej.isSome || c.waits.any (waitOpen s k)

/-- Whether a unit comes at or after a row that waits, or was rejected, in processing order. -/
def blockedRow (s : State) (k : RvCtx) (c : TileCmd) (row : Nat) : Bool :=
  (c.rej.toList.map (·.1) ++ (c.waits.filter (waitOpen s k)).map (·.row)).any (fun w =>
    if c.descending then decide (row ≤ w) else decide (w < row + c.unit))

/-! ## The Planisher (R404 to R407) -/

/-- A present element: row, column, value. -/
abbrev Present := Nat × Nat × Nat

/-- The present elements in bitmap order. -/
def presentElems (c : TileCmd) (bitmap values : List Byte) : List Present :=
  let at_ := (List.range c.nrows).flatMap (fun n =>
    let row := leNat ((bitmap.drop (n * c.tBS)).take c.tBS)
    ((List.range c.tK).filter (bitOf row)).map (fun k => (n, k)))
  (List.range at_.length).map (fun i =>
    let p := at_.getD i (0, 0)
    (p.1, p.2, bitElem c.tBits values i))

/-- The format of an element type code, none for I8. -/
def tlFmt (et : Nat) : Option Fmt :=
  match et with | 0 => some f16 | 1 => some bf16 | 2 => some e4m3 | 3 => some e5m2 | 4 => none | _ => some e2m1

/-- The value of an element. -/
def tlValue (c : TileCmd) (x : Nat) : FV := match tlFmt c.tET with | some f => unpackF f x | none => intFV (sext x 8)
/-- A magnitude. -/
def absFV (v : FV) : FV := match v with | .fin _ m e => .fin false m e | .inf _ => .inf false | v => v

/-- A sum of magnitudes in F32, in order (R405). -/
def sumAbs (c : TileCmd) (es : List Present) : Nat × Sticky :=
  es.foldl (fun (a : Nat × Sticky) e =>
    let r := addFV f32 0 false (unpackF f32 a.1) (absFV (tlValue c e.2.2))
    (r.1, a.2 ||| r.2)) (0, 0)

/-- The present elements of a run, ascending. -/
def runElems (c : TileCmd) (es : List Present) (n r : Nat) : List Present :=
  es.filter (fun e => e.1 == n && e.2.1 / c.tRun == r)

/-- The residual (R404). -/
def residual (c : TileCmd) (es : List Present) : List Present :=
  (List.range c.nrows).flatMap (fun n => (List.range (c.tK / c.tRun)).flatMap (fun r =>
    (runElems c es n r).drop (c.tT * c.tSlots)))

/-- A row of a term: values and indices (R406). -/
def termRow (c : TileCmd) (es : List Present) (t n : Nat) : List Byte × List Byte :=
  let slots := (List.range (c.tK / c.tRun)).flatMap (fun r =>
    let mine := ((runElems c es n r).drop (t * c.tSlots)).take c.tSlots
    (List.range c.tSlots).map (fun i => match mine[i]? with
      | some e => (e.2.2, 8 + e.2.1 % c.tRun)
      | none => (0, 0)))
  (leBytes c.tvs (packElems c.tBits (slots.map (·.1))), leBytes c.tis (packElems 4 (slots.map (·.2))))

/-- Bytes padded with zeros. -/
def padTo (n : Nat) (b : List Byte) : List Byte := b ++ List.replicate (n - b.length) 0

/-- A term's part of the footprint. -/
def termBytes (c : TileCmd) (es : List Present) (t : Nat) : List Byte :=
  let rows := (List.range c.nrows).map (termRow c es t)
  padTo (roundUp (c.nrows * c.tvs) 64) (rows.flatMap (·.1)) ++ padTo (roundUp (c.nrows * c.tis) 64) (rows.flatMap (·.2))

/-- A residual entry. -/
def residualBytes (c : TileCmd) (e : Present) : List Byte :=
  let v := match tlFmt c.tET with
    | some f => (roundFV f32 0 false false (unpackF f e.2.2)).1
    | none => lowBits (sext e.2.2 8) 32
  leBytes 4 v ++ leBytes 1 e.1 ++ leBytes 1 e.2.1 ++ leBytes 2 0

/-- A row of the dense fallback. -/
def denseRow (c : TileCmd) (es : List Present) (n : Nat) : List Byte :=
  let mine := es.filter (fun e => e.1 == n)
  leBytes c.tds (packElems c.tBits ((List.range c.tK).map (fun k => match mine.find? (fun e => e.2.1 == k) with
    | some e => e.2.2
    | none => 0)))

/-- The footprint and the flags (R404 to R407). -/
def decompose (c : TileCmd) (bitmap values : List Byte) : List Byte × Sticky :=
  let es := presentElems c bitmap values
  let res := residual c es
  let rcnt := res.length
  let lall := sumAbs c es
  let lres := sumAbs c res
  let tests := c.tDE && rcnt != 0
  let bound := if tests then fmul f32 0 false c.tEps lall.1 else (0, 0)
  let l := unpackF f32 lres.1
  let b := unpackF f32 bound.1
  let drop := tests && !isNan l && !isNan b && (ltFV l b || eqFV l b)
  let out := if drop then 1 else if rcnt ≤ 512 then 0 else 2
  let nres := if out == 0 then rcnt else 0
  let header := padTo 64 (leBytes 4 (out * 2 ^ 30 + (c.tT - 1) * 2 ^ 28 + c.tPat * 2 ^ 26 + nres) ++ leBytes 4 lres.1 ++
    leBytes 4 lall.1 ++ leBytes 4 es.length ++ leBytes 4 rcnt)
  let body := if out == 2 then (List.range c.nrows).flatMap (denseRow c es)
    else (List.range c.tT).flatMap (termBytes c es) ++ (res.take nres).flatMap (residualBytes c)
  (padTo c.footprint (header ++ body), lall.2 ||| lres.2 ||| bound.2)

/-- The pieces of the bitmap rows, or the first fault. -/
def bitmapRead (s : State) (k : RvCtx) (c : TileCmd) : Except AccFault (List (Nat × Nat)) :=
  (List.range c.nrows).foldr (fun i acc =>
    match tileRead s k (c.rowA i) c.rowb 16, acc with
    | .ok ps, .ok r => .ok (ps ++ r)
    | .error f, _ => .error f
    | _, .error f => .error f) (.ok [])

/-- The pieces of the values. -/
def valuesRead (s : State) (k : RvCtx) (c : TileCmd) (bitmap : List Byte) : Except AccFault (List (Nat × Nat)) :=
  let n := ((presentElems c bitmap []).length * c.tBits + 7) / 8
  if n == 0 then .ok [] else tileRead s k c.gb n 1

/-- The fault of a bitmap row. -/
def bitmapFault (s : State) (k : RvCtx) (c : TileCmd) (i : Nat) : Option AccFault :=
  match tileRead s k (c.rowA i) c.rowb 16 with
  | .error f => some f
  | .ok _ => none

/-- The bitmap of a TLDS as its run has read it, or reads it now: the state and the bytes, or the first fault (R408). -/
def bitmapOf (s : State) (k : RvCtx) (c : TileCmd) : Except AccFault (State × List Byte) :=
  if !c.bitmap.isEmpty then .ok (s, c.bitmap)
  else match bitmapRead s k c with
    | .error f => .error f
    | .ok ps => .ok (tileFetch (countMisses s k.g.core k.l.t (pageVas ((List.range c.nrows).map (fun i => (c.rowA i, c.rowb))))) k ps)

/-- The first fault of a TLDS's reads (R408). -/
def planishFault (s : State) (k : RvCtx) (c : TileCmd) : Option AccFault :=
  match bitmapOf s k c with
  | .error f => some f
  | .ok b => match valuesRead s k c b.2 with
    | .error f => some f
    | .ok _ => none

/-- The faulting pages of a bitmap in the window of 64 rows of its first faulting row. A TLDS waits on them as a whole: at row 0. -/
def bitmapPages (s : State) (k : RvCtx) (c : TileCmd) : List (Nat × Nat × PageFault) :=
  let i := ((List.range c.nrows).find? (fun i => (bitmapFault s k c i).isSome)).getD 0
  (faultingPages (bitmapFault s k c) (fun i => [(c.rowA i, c.rowb)]) ((List.range (min 64 (c.nrows - i / 64 * 64))).map (i / 64 * 64 + ·))).map
    (fun p => (0, p.2))

/-- PLANISHER_DECOMPOSE (R404, R408): the tile is read whole, each byte once, and decomposed; pages that are missing are asked for. -/
def planish (s : State) (k : RvCtx) (slot : Nat) (c : TileCmd) : State :=
  match bitmapOf s k c with
  | .error f => if f.code == 6 then waitPages s k slot c (bitmapPages s k c) else s
  | .ok (s, bm) =>
    match valuesRead s k c bm with
    | .error f =>
      let c := { c with bitmap := bm }
      if f.code == 6 then
        waitPages s k slot c (faultingPages (fun _ => some f) (fun _ => [(c.gb, ((presentElems c bm []).length * c.tBits + 7) / 8)]) [0])
      else setCmd s k slot c
    | .ok vs =>
      let (s, v) := tileFetch (countMisses s k.g.core k.l.t (pageVas [(c.gb, ((presentElems c bm []).length * c.tBits + 7) / 8)])) k vs
      let r := decompose c bm v
      setCmd s k slot { c with bitmap := bm, out := r.1, flags := c.flags ||| r.2 }

/-! ## The events -/

/-- A command of a resident group in a slot, while its launch goes on. -/
def tileAt (s : State) (g : Nat) (st : Bool) (slot : Nat) : Option (RvCtx × TileCmd) :=
  match rvOf s g st with
  | none => none
  | some k => if k.l.ending.isSome then none else (lookup k.r.slots slot).map (fun c => (k, c))

/-- TILE_COMMAND_START (R150, R162, R408): in ticket order, once no fence holds the command. -/
def execTileCommandStart (g : Nat) (st : Bool) (slot : Nat) (s : State) : Out :=
  .next (match tileAt s g st slot with
    | none => s
    | some (k, c) =>
      if c.st == 2 && c.isTlds && c.out.isEmpty then (if cmdWaits s k c then s else planish s k slot c)
      else if c.st != 1 then s
      else if k.r.slots.any (fun p => p.2.st == 1 && decide (p.2.ticket.toNat < c.ticket.toNat)) then s
      else if k.r.slots.any (fun p => decide (p.2.ticket.toNat < c.fwait.toNat)) then s
      else
        let c := { c with st := 2 }
        let s := setCmd s k slot c
        if c.isTlds then planish s k slot c else s)

/-- The command of a slot with the indices up to a row read, as far as it may take them (R158). -/
def withIndices (s : State) (k : RvCtx) (slot : Nat) (c : TileCmd) (row : Nat) : State × TileCmd :=
  if !c.isTgath then (s, c)
  else
    let rows := c.upTo row
    let s := countMisses s k.g.core k.l.t ((rows.filter (fun j => (lookup c.held j).isNone)).map c.indexVa)
    let r := holdIndices k rows s c
    (setCmd r.1 k slot r.2, r.2)

/-- A row, or a band, is read, if it has not been, written and counted. A row whose bytes cannot be counted stays open: TRES lands the
same bytes (R157). -/
def finishRow (s : State) (k : RvCtx) (slot : Nat) (c : TileCmd) (row : Nat) (lost : Bool) : State :=
  let (s, c) := moveRow s k c row lost
  if countsRows c then
    match countBytes s k c 1 c.rowb with
    | .error f => stopAtBar s k slot c f
    | .ok s => setCmd s k slot ({ c with owed := c.owed - c.rowb }.markRow row)
  else setCmd s k slot (c.markRow row)

/-- TILE_ROW_COMPLETE (R156 to R161): a row that has been issued completes; any other once no row before it faults or waits.
Rows of pages with MT = 2 complete in no fixed order either: the model's choice between R70 and R161 (DEDUCED, assumption 21). -/
def execTileRowComplete (g : Nat) (st : Bool) (slot row : Nat) (lost : Bool) (s : State) : Out :=
  .next (match tileAt s g st slot with
    | none => s
    | some (k, c) =>
      if c.st != 2 || c.isTlds || !c.mayTake row || !cmdPort s k c then s
      else if (c.openRow row).isSome then finishRow s k slot c row lost
      else if blockedRow s k c row then s
      else
        let (s, c) := withIndices s k slot c row
        match firstFault s k c row with
        | some f => if f.code == 6 then waitPages s k slot c (faultingPages (rowFault s k c) (rowReach c) c.window) else s
        | none => finishRow s k slot c row lost)

/-- A chunk of an open row lands. -/
def landChunk (s : State) (k : RvCtx) (slot : Nat) (c : TileCmd) (row i : Nat) : State :=
  setCmd (land s k c c.spc (((c.openRow row).bind (fun o => o.chunks[i]?)).toList)) k slot c

/-- One chunk of a row, or of a TLDS's footprint, lands early (R57, R140, R408): a reader that does not wait may see it. The engines'
writes to global memory are performed a row at a time (assumption 67). -/
def chunkLands (s : State) (g : Nat) (st : Bool) (slot row i : Nat) : State :=
  match tileAt s g st slot with
  | none => s
  | some (k, c) =>
    if c.st != 2 then s
    else if c.isTlds then
      match (chunks16 [(c.lo, c.out)])[i]? with
      | some w => if c.rowdone == 0 then land s k c 1 [w] else s
      | none => s
    else if c.isTst || c.isTcopy || !c.mayTake row then s
    else if (c.openRow row).isSome then landChunk s k slot c row i
    else if blockedRow s k c row then s
    else
      let (s, c) := withIndices s k slot c row
      match firstFault s k c row with
      | some _ => s
      | none =>
        let r := issueRow s k c row
        landChunk r.1 k slot r.2 row i

/-- The first address in another package's memory that a row still reads (R457). -/
def rowAway (s : State) (k : RvCtx) (c : TileCmd) (i : Nat) : Option Nat :=
  let away := fun va n => if (piecesOr (tileRead s k va n 1)).any (fun p => awayPa s p.1) then some va else none
  if c.isTst || (c.isTcopy && (lookup c.srcs i).isSome) then none
  else if c.isTgath && (lookup c.held i).isNone then away (c.indexVa i) 4
  else away (c.globalRow i) c.rowb

/-- The first such address of a TLDS: of its bitmap, then of its values. -/
def planishAway (s : State) (k : RvCtx) (c : TileCmd) : Option Nat :=
  match bitmapOf s k c with
  | .error _ => none
  | .ok b => match (if c.bitmap.isEmpty then (List.range c.nrows).findSome? (rowAway s k c) else none) with
    | some va => some va
    | none => if (piecesOr (valuesRead s k c b.2)).any (fun p => awayPa s p.1) then some c.gb else none

/-- An uncorrectable error that stops a command is reported: a line of memory, or a doubleword of a local space (R40, R102). -/
def reportTile (s : State) (k : RvCtx) (f : AccFault) : State :=
  let s := match f.walk with | some va => walked s k.g.core k.l.t va | none => s
  match f.pte, f.spot with
  | some pa, _ => memError s k.g.core k.l.t pa
  | none, some p => spotError s k p.1 p.2
  | none, none => s

/-- The address of the row whose page was rejected, once that row is the next and no issued row is out (R33, R157): the command stops
there with F_PAGE. -/
def rejectDue (c : TileCmd) : Option Dword :=
  match c.rej with
  | none => none
  | some r => if c.rowsOut || decide (r.1 < c.firstOpen) || decide (c.firstOpen + c.unit ≤ r.1) then none else some r.2

/-- TILE_COMMAND_STOP (R157): a fault other than F_PAGE at the first open row, or a page rejected there; refused: its read of another
package (R457). -/
def execTileCommandStop (g : Nat) (st : Bool) (slot : Nat) (refused : Bool) (s : State) : Out :=
  .next (match tileAt s g st slot with
    | none => s
    | some (k, c) =>
      if c.st != 2 || c.allRows || !c.out.isEmpty || c.rowsOut then s
      else match rejectDue c with
      | some va => stopCmd s k slot c 6 va.toNat
      | none =>
        if blockedRow s k c c.firstOpen then s
        else match (if c.isTlds then planishFault s k c else (unitRows c c.firstOpen).findSome? (rowFault s k c)) with
        | some f => if f.code == 6 || f.code == 0 then s
            else
              stopCmd (reportTile s k f) k slot c f.code (f.lo.toNat + f.hi.toNat * 2 ^ 32)
        | none =>
          if !refused then s
          else match (if c.isTlds then planishAway s k c else (unitRows c c.firstOpen).findSome? (rowAway s k c)) with
            | some va => stopCmd s k slot c 5 va
            | none => s)

/-- The footprint of a TLDS is written and counted; rowdone then reads N (R406, R408). -/
def writeFootprint (s : State) (k : RvCtx) (slot : Nat) (c : TileCmd) : State :=
  let s := countEvent (land s k c 1 [(c.lo, c.out)]) k.l.t 7 c.footprint
  match countBytes s k c 1 c.footprint with
  | .error f => stopAtBar s k slot c f
  | .ok s => setCmd s k slot { c with rowdone := c.nrows, owed := c.owed - c.footprint }

/-- TILE_COMMAND_COMPLETE (R127, R150, R154, R406): every row is complete, or the footprint is written, in two steps: the bytes and
their count, then the slot. -/
def execTileCommandComplete (g : Nat) (st : Bool) (slot : Nat) (s : State) : Out :=
  .next (match tileAt s g st slot with
    | none => s
    | some (k, c) =>
      if c.st != 2 then s
      else if c.isTlds && c.rowdone == 0 then (if c.out.isEmpty || !cmdPort s k c then s else writeFootprint s k slot c)
      else if !c.allRows then s
      else if c.isTlds || countsRows c then freeSlot s k slot
      else if !cmdPort s k c then s
      else match countBytes s k c c.wide c.total with
        | .error f => stopAtBar s k slot c f
        | .ok s => freeSlot s k slot)

/-- A rejected page stops the commands that wait on its entry, at the row that waits, once the rows before it are complete; of several
such rows the first in processing order counts (R32, R33, R157). -/
def rejectCmd (s : State) (k : RvCtx) (slot : Nat) (c : TileCmd) (id : Nat) : State :=
  let first := fun (r : Option (Nat × Dword)) (w : TileWait) => match r with
    | none => some (w.row, w.va)
    | some v => if (if c.descending then decide (v.1 < w.row) else decide (w.row < v.1)) then some (w.row, w.va) else some v
  let c := { c with rej := (c.waits.filter (·.id == id)).foldl first c.rej, waits := c.waits.filter (·.id != id) }
  match rejectDue c with
  | some va => stopCmd s k slot c 6 va.toNat
  | none => setCmd s k slot c

end Sys2Proof.Machine
end

