-- ==== Sys2Proof/Machine/Records.lean ====
section
/-! DEFINITION. Records: headers, node queues and their pages, bounces, packing, and the spawns (R198 to R215, R307, R380,
R459). -/

namespace Sys2Proof.Machine

/-! ## Record fields -/

/-- The work identifier of a payload (R308). -/
def payloadWid (b : List Byte) : Dword := BitVec.ofNat 64 (leNat (b.take 8))
/-- The placement mask of a node (R197). -/
def NodeCopy.placeMask (n : NodeCopy) : Dword := n.fieldMask n.hsel
/-- The home slice of a record at a node (R73, R202). -/
def recSlice (n : NodeCopy) (r : Rec) : Nat := placeSlice (payloadWid r.payload) n.placeMask
/-- Its home neighbourhood. -/
def recNb (n : NodeCopy) (r : Rec) : Nat := sliceNb (recSlice n r)
/-- Whether a record comes from a spawner of the launch that it targets. -/
def Rec.own (r : Rec) : Bool := r.origin == 0 && r.sslot == r.slot && r.sgen == r.gen
/-- Whether two records go to one queue. -/
def Rec.sameQueue (a b : Rec) : Bool := a.slot == b.slot && a.gen == b.gen && a.node == b.node
/-- The 16-byte header (R198). -/
def recHeader (r : Rec) : List Byte :=
  leBytes 16 ((if r.res then 2 ^ 47 else 0) + r.sgen.toNat * 2 ^ 102 + r.sslot * 2 ^ 96 + r.spkg * 2 ^ 86 + r.slot * 2 ^ 80 + r.gen.toNat * 2 ^ 64 +
    r.node * 2 ^ 48 + r.scope * 2 ^ 44 + (r.payload.length / 8 - 1) * 2 ^ 39 + r.depth * 2 ^ 33 + r.tag.toNat)

/-- The launch of a slot, when its generation is the given one. -/
def launchAt (s : State) (slot : Nat) (gen : BitVec 16) : Option Launch :=
  if s.gen slot == gen then lookup s.launches slot else none

/-! ## Pages of node queues (R202, R204) -/

/-- Bytes of a record in a page, and records of a page. -/
def NodeCopy.recBytes (n : NodeCopy) : Nat := roundUp (16 + n.rsize) 16
def NodeCopy.pageRecs (n : NodeCopy) : Nat := 4032 / n.recBytes

namespace Die
/-- The pages of a queue, oldest first. -/
def queue (D : Die) (slot node : Nat) : List RecPage := D.pages.filter (fun p => p.slot == slot && p.node == node)
/-- The records of a queue in order. -/
def recs (D : Die) (slot node : Nat) : List Rec := (D.queue slot node).flatMap (fun p => p.recs.map (·.2))
/-- The depth of a queue (R202). -/
def depth (D : Die) (slot node : Nat) : Nat := (D.recs slot node).length
/-- Pages of the record store in use (R204, R205). -/
def pagesUsed (D : Die) : Nat :=
  (D.pages.filter (fun p => p.arena.isNone)).length +
  (D.resumes.flatMap (fun r => r.groups.filter (fun g => g.rpage.isNone))).length
/-- The records that may be packed: those before the first page that is spilled. -/
def ready (D : Die) (slot node : Nat) : List Rec :=
  ((D.queue slot node).takeWhile (fun p => p.arena.isNone)).flatMap (fun p => p.recs.map (·.2))
end Die

/-- The physical address of an arena page (R191). -/
def arenaPa (s : State) (l : Launch) (p : Nat) : Nat := canonPa s (l.oabase + 4096 * p)

/-- The bytes of a record page (R204). -/
def pageBytes (n : NodeCopy) (p : RecPage) : List Byte :=
  p.recs.foldl (fun b r => let o := 64 + r.1 * n.recBytes
    b.take o ++ padTo n.recBytes (recHeader r.2 ++ r.2.payload) ++ b.drop (o + n.recBytes)) (List.replicate 4096 0)

/-- Bytes of an arena page written (R94). Nothing that a graph scheduler writes mends a bad line (R503). -/
def writeArena (s : State) (l : Launch) (page off : Nat) (b : List Byte) : State :=
  (byLine (cellsOf (arenaPa s l page + off) b)).foldl (fun s cs => targetWrite s noCore l.t cs false) s

/-- A line of a record page enters the retention class of its slice, with the bytes that HBM4E holds (R95): at most 4 of a set are
kept, and one that leaves for it, which is a free value, goes to HBM4E. -/
def keepLine (s : State) (line : Nat) : State :=
  let sl := s.slice (homeSlice (line * 64))
  if placeOf s (line * 64) != .hbm || sl.kept.any (fun k => k.line == line) then s
  else s.setSlice (homeSlice (line * 64)) { sl with
    kept := install Config.recordWays (fun k => Config.lineSet k.line == Config.lineSet line) sl.kept ⟨line, readMem s (line * 64) 64⟩ }

/-- Bytes of a record page written to the arena. -/
def writePage (s : State) (l : Launch) (page off : Nat) (b : List Byte) : State :=
  let pa := arenaPa s l page + off
  writeArena ((List.range ((pa % 64 + b.length + 63) / 64)).foldl (fun s i => keepLine s (pa / 64 + i)) s) l page off b

/-- A kept line dropped without being written to HBM4E (R95): its bytes are those that HBM4E holds. -/
def dropLine (s : State) (line : Nat) : State :=
  let k := homeSlice (line * 64)
  match (s.slice k).kept.find? (fun x => x.line == line) with
  | none => s
  | some x =>
    let own := (s.slice k).bad.contains line
    let s := s.onSlice k (fun sl =>
      { sl with kept := sl.kept.filter (fun x => x.line != line), bad := sl.bad.filter (· != line) })
    { s with mem := writeCells s.mem (cellsOf (line * 64) x.old),
             badLines := if own then s.badLines.filter (· != line) else s.badLines }

/-- An arena page that has been read back is freed (R95). -/
def dropPage (s : State) (l : Launch) (page : Nat) : State :=
  (List.range 64).foldl (fun s i => dropLine s (arenaPa s l page / 64 + i)) s

/-- The places that the pages of a queue still have. -/
def queuePlaces (s : State) (die slot node : Nat) : Nat :=
  match lookup s.launches slot with
  | none => 0
  | some l => (((s.die die).queue slot node).map (fun p => (l.node node).pageRecs - p.used)).foldl (· + ·) 0

/-- A new page for a queue: of the store below 3,840 pages, else of the arena (R204, R205). -/
def newPage (s : State) (die slot node : Nat) : Option State :=
  match lookup s.launches slot with
  | none => none
  | some l =>
    let (id, s') := freshId s
    let add := fun (s : State) (a : Option Nat) =>
      s.onDie die (fun D => { D with pages := D.pages ++ [{ id := id, slot := slot, node := node, arena := a }] })
    if (s.die die).pagesUsed < 3840 then some (add s' none)
    else (pickFree l.arenaUsed l.oapg).map (fun a =>
      add (s'.onLaunch slot (fun l => { l with arenaUsed := l.arenaUsed ++ [a] })) (some a))

/-- A place for one more record of a queue beside k that are promised: the pages have it, or get a new page. -/
def givePlace (s : State) (die slot node k : Nat) : Option State :=
  if k < queuePlaces s die slot node then some s else newPage s die slot node

/-- Records that their spawners have handed over and that have not entered a queue (R203). -/
def handedOver (s : State) (die slot node : Nat) : Nat :=
  ((s.die die).transit.filter (fun q => q.origin == 0 && q.slot == slot && q.node == node && s.gen slot == q.gen)).length

/-- A record enters its queue (R203); none when no page can be given (R205). -/
def enterQueue (s : State) (die : Nat) (r : Rec) : Option State :=
  match lookup s.launches r.slot, givePlace s die r.slot r.node (handedOver s die r.slot r.node) with
  | some l, some s =>
    let n := l.node r.node
    let r := { r with at_ := s.clk, credit := false, hold := false, wait := 0 }
    match ((s.die die).queue r.slot r.node).find? (fun p => decide (p.used < n.pageRecs)) with
    | some p =>
      let q := { p with used := p.used + 1, recs := p.recs ++ [(p.used, r)] }
      let s := match p.arena with
        | some a => writePage s l a (64 + p.used * n.recBytes) (padTo n.recBytes (recHeader r ++ r.payload))
        | none => s
      some (s.onDie die (fun D => { D with pages := D.pages.map (fun x => if x.id == p.id then q else x) }))
    | none => none
  | _, _ => none

/-- The pages of a queue that hold no record are freed (R95, R204), but for those whose places are kept for records that have been handed
over (R203, R205). -/
def freeEmpty (s : State) (die : Nat) (q : Nat × Nat) : State :=
  ((s.die die).queue q.1 q.2).foldl (fun s p =>
    let places := match lookup s.launches q.1 with | some l => (l.node q.2).pageRecs - p.used | none => 0
    if !p.recs.isEmpty || queuePlaces s die q.1 q.2 < handedOver s die q.1 q.2 + places then s
    else
      let s := s.onDie die (fun D => { D with pages := D.pages.filter (fun x => x.id != p.id) })
      match p.arena with
      | some a => s.onLaunch p.slot (fun l => { l with arenaUsed := l.arenaUsed.filter (· != a) })
      | none => s) s

/-- The same for every queue of a die. -/
def freePages (s : State) (die : Nat) : State := (dedup ((s.die die).pages.map (fun p => (p.slot, p.node)))).foldl (fun s q => freeEmpty s die q) s

/-- Records removed from the queues of a die: pages that they leave empty are freed (R95, R204). -/
def dropRecs (s : State) (die : Nat) (gone : Rec → Bool) : State :=
  freePages (s.onDie die (fun D =>
    { D with pages := D.pages.map (fun p => { p with recs := p.recs.filter (fun r => !gone r.2) }) })) die

/-! ## Packing (R207, R208) -/

/-- A pack buffer or a forming set: slot, node, neighbourhood. -/
abbrev BufKey := Nat × Nat × Option Nat

/-- The buffer of a record; none for a gang record. -/
def bufOf (l : Launch) (r : Rec) : Option BufKey :=
  let n := l.node r.node
  if n.kind == 2 then none else some (r.slot, r.node, if n.near then some (recNb n r) else none)

/-- The unformed records of a buffer, in queue order. -/
def bufRecs (s : State) (die : Nat) (k : BufKey) : List Rec :=
  match lookup s.launches k.1 with
  | none => []
  | some l => ((s.die die).ready k.1 k.2.1).filter (fun r => r.cand == 0 && bufOf l r == some k)

/-- The records that a cohort or group of a node takes at most. -/
def NodeCopy.packMax (n : NodeCopy) : Nat := if n.kind == 0 then 32 else n.gmax

/-- A cohort or group formed from the first records of a buffer. -/
def formFrom (s : State) (die : Nat) (k : BufKey) : State :=
  match lookup s.launches k.1 with
  | none => s
  | some l =>
    let take := ((bufRecs s die k).take (l.node k.2.1).packMax).map (·.id)
    if take.isEmpty then s
    else
      let (id, s) := freshId s
      s.onDie die (fun D => { D with
        pages := D.pages.map (fun p =>
          { p with recs := p.recs.map (fun r => if take.contains r.2.id then (r.1, { r.2 with cand := id }) else r) }),
        cands := D.cands ++ [⟨id, k.1, k.2.1, k.2.2, s.clk⟩] })

/-- A full buffer forms at once, as often as it is full (R207, R208): n bounds the number of its records. -/
def formFull (s : State) (die : Nat) (k : BufKey) : Nat → State
  | 0 => s
  | n + 1 => match lookup s.launches k.1 with
    | none => s
    | some l => if (l.node k.2.1).packMax ≤ (bufRecs s die k).length then formFull (formFrom s die k) die k n else s

/-- The records of a formed cohort or group. -/
def candRecs (s : State) (die : Nat) (c : Cand) : List Rec := ((s.die die).recs c.slot c.node).filter (fun r => r.cand == c.id)

/-- A record that has entered its queue joins what its buffer has formed in the same clk, as long as there is room and no record
before it waits (R207, R216); else a full buffer forms. -/
def packRec (s : State) (die : Nat) (k : BufKey) (id : Nat) : State :=
  match lookup s.launches k.1 with
  | none => s
  | some l =>
    let open_ := (s.die die).cands.find? (fun c => c.slot == k.1 && c.node == k.2.1 && c.nb == k.2.2 && c.at_ == s.clk &&
      decide ((candRecs s die c).length < (l.node k.2.1).packMax))
    match open_, bufRecs s die k with
    | some c, [_] => s.onDie die (fun D => { D with pages := D.pages.map (fun p =>
        { p with recs := p.recs.map (fun r => if r.2.id == id then (r.1, { r.2 with cand := c.id }) else r) }) })
    | _, rs => formFull s die k rs.length

/-- The buffers of a die that hold unformed records, in order of their first records. -/
def buffersOf (s : State) (die : Nat) : List BufKey :=
  dedup ((s.die die).pages.flatMap (fun p => p.recs.filterMap (fun r =>
    if r.2.cand != 0 then none else (lookup s.launches r.2.slot).bind (fun l => bufOf l r.2))))

/-- Whether the timer of a buffer has run out (R207, R208). -/
def timerOut (s : State) (die : Nat) (b : BufKey) : Bool :=
  match lookup s.launches b.1, bufRecs s die b with
  | some l, r :: _ => l.ending.isNone && decide (r.at_ + (l.node b.2.1).tmr ≤ s.clk)
  | _, _ => false

/-- A buffer of a node kind whose timer has run out forms. -/
def timerForms (s : State) (die k : Nat) (kind : Nat) : State :=
  match (buffersOf s die)[k]? with
  | none => s
  | some b =>
    if timerOut s die b && (lookup s.launches b.1).any (fun l => (l.node b.2.1).kind == kind) then formFrom s die b else s

/-- A buffer formed as long as its timer has run out. -/
def formExpired (s : State) (die : Nat) (b : BufKey) : Nat → State
  | 0 => s
  | n + 1 => if timerOut s die b then formExpired (formFrom s die b) die b n else s

/-- At the end of a clk every buffer whose timer has run out has formed (R207, R208). -/
def formDue (s : State) : State :=
  s.dies.foldl (fun s d => (buffersOf s d.1).foldl (fun s b => formExpired s d.1 b (bufRecs s d.1 b).length) s) s

/-- PACK_TIMER_EXPIRY (R207). -/
def execPackTimerExpiry (die k : Nat) (s : State) : Out := .next (timerForms s die k 0)
/-- GROUP_FORM_TIMER (R208). -/
def execGroupFormTimer (die k : Nat) (s : State) : Out := .next (timerForms s die k 1)

/-! ## Bounces (R211 to R214) -/

/-- Whether a record's sender is of another tenant than a launch. A tenant of another package is known by the domain key that its
accesses carry (R452, assumption 69). -/
def alien (s : State) (r : Rec) (l : Launch) : Bool :=
  match r.key with
  | some k => k != (s.tenant l.t).tldkey
  | none => (launchAt s r.sslot r.sgen).any (fun m => m.t != l.t)

/-- Why a record's target does not take it; 0 when it does (R211, R212). -/
def refusal (s : State) (r : Rec) : Nat :=
  match launchAt s r.slot r.gen with
  | none => 1
  | some l =>
    if alien s r l then 5
    else if l.ending.isSome then 7
    else if l.nnode ≤ r.node then 2
    else if !(l.node r.node).ent then 3
    else if (l.node r.node).rsize != r.payload.length then 4
    else 0

/-- A bounce entry (R213). -/
def bounceEntry (r : Rec) (b : Dword) (cause : Nat) : List Byte :=
  recHeader r ++ leBytes 8 r.handle.toNat ++ leBytes 4 b.toNat ++ leBytes 1 cause ++ leBytes 3 0 ++ padTo 256 r.payload

/-- What became of a record of another package goes back to it (R212, R459). -/
def returnRec (s : State) (cause : Nat) (r : Rec) : State :=
  { s with link := { s.link with returns := s.link.returns ++ [(r.spkg, cause, r)] } }

/-- A record bounces to its sender's ring (R213, R214), or to the package that it came from (R212). -/
def bounce (s : State) (r : Rec) (cause : Nat) : State :=
  if r.origin == 2 then returnRec s cause r
  else match launchAt s r.sslot r.sgen with
  | none => s
  | some l =>
    let b := l.bcnt
    let s := s.onLaunch r.sslot (fun l => { l with bcnt := l.bcnt + 1 })
    let lose := fun s : State => s.onLaunch r.sslot (fun l => { l with blost := l.blost + 1 })
    let va := (l.bq + 64 + 288 * (b.toNat % 2 ^ l.bqn)) % 2 ^ 64
    match frontWrite s l.t va (bounceEntry r b cause) with
    | .error x => lose (frontFailed s l.t va 288 x)
    | .ok s1 => match frontWrite s1 l.t l.bq (padTo 64 (leBytes 8 (b + 1).toNat)) with
      | .ok s2 => s2
      | .error x => lose (frontFailed s1 l.t l.bq 64 x)

/-- A record of a VSPAWN has entered its queue, or bounces: its word has one less to wait for (R381). -/
def recEntered (s : State) (r : Rec) : State :=
  if r.hold then s.onCohort r.from_ (fun co => { co with vout := co.vout - 1 }) else s

/-! ## Room for a record (R203, R205, R459) -/

/-- The first record of a parked spawner. -/
def parkedRec (s : State) (c : Nat) : Option Rec := (lookup s.cohorts c).bind (fun co => co.outbox.head?)

/-- Where a record goes. -/
inductive Dest where
  | die (d : Nat)
  | pkg (p : Nat)
  deriving DecidableEq, Repr

/-- The package that a handle names; none for this one (R199). -/
def handlePkg (s : State) (h : Dword) : Option Nat :=
  let p := dbits h 63 54
  if p == 1023 || p == s.link.pkgid then none else some p

/-- The destination of a spawned record (R202, R211). -/
def destOf (s : State) (r : Rec) : Dest :=
  match handlePkg s r.handle with
  | some p => .pkg p
  | none => match launchAt s r.slot r.gen with
    | some l => .die (sliceDie (recSlice (l.node r.node) r))
    | none => .die 0

/-- The die whose list a parked spawner of a record waits in. -/
def waitDie (r : Rec) (d : Dest) : Nat := match d with | .die k => k | .pkg _ => sliceDie (placeSlice (payloadWid r.payload) 0)

/-- Whether a record of another sender has waited for the same queue since before one arrived (R203): those that wait at CAP enter in
the order in which they arrived. -/
def capAhead (s : State) (die : Nat) (r : Rec) : Bool :=
  let before := fun q : Rec => !q.own && q.sameQueue r && q.wait != 0 && (r.wait == 0 || decide (q.wait < r.wait))
  (s.die die).transit.any (fun q => q.origin != 0 && before q) ||
  (s.die die).parked.any (fun c => (parkedRec s c).any before)

/-- Whether a queue of a launch has room below a limit, beside what has been handed over to it. -/
def belowLimit (s : State) (die : Nat) (r : Rec) (limit : Nat) : Bool :=
  decide ((s.die die).depth r.slot r.node + handedOver s die r.slot r.node < limit)

/-- Whether a page can be given for one more record (R205). -/
def pageGiven (s : State) (die slot node : Nat) : Bool := (givePlace s die slot node (handedOver s die slot node)).isSome

/-- Whether a spawner parked before a record of the same queue goes first: one under the mark before another, and, where a page is what
they wait for, whoever parked first (R203, R205). -/
def goesFirst (s : State) (die : Nat) (n : NodeCopy) (q r : Rec) : Bool :=
  if q.own then r.own || belowLimit s die q n.hwm else r.own && belowLimit s die q n.cap

/-- Whether a record of this package's spawner can be taken now; `behind` are the spawners parked before it (R203, R205,
R459). One that its target refuses goes, and bounces (R211). -/
def roomFor (s : State) (r : Rec) (d : Dest) (behind : List Nat) : Bool :=
  match d with
  | .pkg p => unreachable s p || (!linkWaits s && decide (get 0 s.link.credits p < Config.recordCredits) &&
      !behind.any (fun c => (parkedRec s c).any (fun q => destOf s q == d)))
  | .die k =>
    match launchAt s r.slot r.gen with
    | none => true
    | some l =>
      let node := l.node r.node
      let given := pageGiven s k r.slot r.node && !behind.any (fun c => (parkedRec s c).any (fun q => destOf s q == d && q.sameQueue r &&
        goesFirst s k node q r))
      if r.own then belowLimit s k r node.hwm && given
      else refusal s r != 0 || (belowLimit s k r node.cap && given && !capAhead s k r)

/-- The domain key that a record takes out of the package (R452). -/
def recKey (s : State) (r : Rec) : Option (BitVec 16) := (launchAt s r.sslot r.sgen).map (fun l => (s.tenant l.t).tldkey)

/-- A record leaves its spawner (R203, R459): towards its die, where a place is kept for it, over UALink with its tenant's key, or
straight back where the package cannot be reached (R457). A VSPAWN's word waits for it (R381). -/
def sendRec (s : State) (r : Rec) (d : Dest) : State :=
  let out := fun s : State => if r.hold then s.onCohort r.from_ (fun co => { co with vout := co.vout + 1 }) else s
  match d with
  | .die k =>
    let s := if r.own || refusal s r == 0 then (givePlace s k r.slot r.node (handedOver s k r.slot r.node)).getD s else s
    (out s).onDie k (fun D => { D with transit := D.transit ++ [r] })
  | .pkg p =>
    if unreachable s p then bounce s r 6
    else { out s with link := { s.link with sent := s.link.sent ++ [(p, { r with key := recKey s r })], credits := put 0 s.link.credits p (get 0 s.link.credits p + 1) } }

/-- Whether a spawner that parked for one record keeps its place for the next: under the mark of the same queue, or on the same
package's credits (R203, R459). Any other record of it arrives now. -/
def keepsPlace (s : State) (h r : Rec) : Bool :=
  (r.own && r.sameQueue h && destOf s r == destOf s h) || (match destOf s r with | .pkg _ => destOf s r == destOf s h | .die _ => false)

/-- The spawners that have parked before a cohort's record, where the cohort has parked for record h (R188, R203). -/
def parkedBefore (s : State) (c : Nat) (h : Option Rec) (r : Rec) : List Nat :=
  let ps := (s.die (waitDie r (destOf s r))).parked
  if h.any (fun h => keepsPlace s h r) then ps.takeWhile (· != c) else ps.filter (· != c)

/-- The records of a spawn are handed over one after another; the rest stay with the spawner (R381). -/
def handOver : Nat → State → Nat → Option Rec → State
  | 0, s, _, _ => s
  | n + 1, s, c, h =>
    match parkedRec s c with
    | none => s
    | some r =>
      let d := destOf s r
      if roomFor s r d (parkedBefore s c h r) then
        handOver n (sendRec (s.onCohort c (fun co => { co with outbox := co.outbox.drop 1 })) r d) c h
      else s

/-- The first record of a spawner that parks, where it is another launch's queue's, has arrived there (R203). -/
def stampHead (s : State) (c : Nat) : State :=
  match parkedRec s c with
  | none => s
  | some r =>
    if r.own || r.wait != 0 then s
    else { s.onCohort c (fun co => { co with outbox := co.outbox.modify 0 (fun r => { r with wait := s.fresh }) }) with fresh := s.fresh + 1 }

/-- A spawn of a cohort (R181, R308, R381): the records go, and it parks where one cannot. -/
def spawnRecs (s : State) (x : Ctx) (rs : List Rec) : State :=
  let s := countEvent (s.onCohort x.c (fun co => { co with outbox := rs })) x.t 13 rs.length
  let s := handOver rs.length s x.c none
  match parkedRec s x.c with
  | none => s
  | some r =>
    let s := (stampHead s x.c).onDie (waitDie r (destOf s r)) (fun D => { D with parked := D.parked ++ [x.c] })
    parkIssued (countEvent s x.t 12 1) x .spawn

/-- A parked spawner after it has handed over records: it goes on, keeps its place, or waits behind the other spawners. -/
def spawnerMoves (s : State) (die c : Nat) (r : Rec) : State :=
  let out := fun s : State => s.onDie die (fun D => { D with parked := D.parked.filter (· != c) })
  match parkedRec s c with
  | none => spawnDone (out s) c
  | some q =>
    let s := stampHead s c
    if keepsPlace s r q then s
    else (out s).onDie (waitDie q (destOf s q)) (fun D => { D with parked := D.parked ++ [c] })

/-- SPAWNER_WAKE (R188, R203): the first of a queue's parked spawners hands over its record, and goes on when none is left. -/
def execSpawnerWake (die k : Nat) (s : State) : Out :=
  .next (match (s.die die).parked[k]? with
    | none => s
    | some c => match parkedRec s c, ctxOf s c with
      | some r, some x =>
        let d := destOf s r
        if x.l.ending.isSome || !roomFor s r d ((s.die die).parked.take k) then s
        else
          let s := sendRec (s.onCohort c (fun co => { co with outbox := co.outbox.drop 1 })) r d
          spawnerMoves (handOver x.co.outbox.length s c (some r)) die c r
      | _, _ => s.onDie die (fun D => { D with parked := D.parked.eraseIdx k }))

/-! ## Arrival (R203, R211) -/

/-- Whether an earlier record must enter before one: those of one cohort to one queue (R201), and the entries of a launch (R231). -/
def waitsBehind (s : State) (earlier : List Rec) (r : Rec) : Bool :=
  if r.origin == 1 then
    s.dies.any (fun d => d.2.transit.any (fun q => q.origin == 1 && q.slot == r.slot && decide (q.id < r.id)))
  else r.origin == 0 && earlier.any (fun q => q.origin == 0 && q.from_ == r.from_ && q.sameQueue r)

/-- Whether the queue's limit admits a record (R203): a spawner's record has its place, any other enters below CAP in the order of
arrival. -/
def admits (s : State) (die : Nat) (l : Launch) (r : Rec) : Bool :=
  r.origin == 0 || (belowLimit s die r (l.node r.node).cap && !capAhead s die r)

/-- A record that waits in front of its queue has arrived there (R203). -/
def arrivedAt (s : State) (die k : Nat) (r : Rec) : State :=
  if r.origin == 0 || r.wait != 0 then s
  else { s.onDie die (fun D => { D with transit := D.transit.modify k (fun q => { q with wait := s.fresh }) }) with fresh := s.fresh + 1 }

/-- RECORD_ARRIVAL (R203, R211, R459): a record in transit enters its queue, waits, or bounces; one of another package gives its credit
back. -/
def execRecordArrival (die k : Nat) (s : State) : Out :=
  .next (match (s.die die).transit[k]? with
    | none => s
    | some r =>
      if waitsBehind s ((s.die die).transit.take k) r || (s.die die).inReset then s
      else
        let gone := recEntered (s.onDie die (fun D => { D with transit := D.transit.eraseIdx k })) r
        let cause := if r.own || r.origin == 1 then 0 else refusal s r
        if cause != 0 then freePages (bounce gone r cause) die
        else match lookup s.launches r.slot with
          | none => gone
          | some l =>
            if l.ending.isSome then s
            else match (if admits s die l r then enterQueue gone die r else none) with
              | none => arrivedAt s die k r
              | some s' =>
                let s' := if r.credit then returnRec s' 0 r else s'
                match bufOf l r with
                | some b => packRec s' die b r.id
                | none => s')

/-- REMOTE_CREDIT_RETURN (R459): a record sent to another package has entered its queue there, or comes back (R212). -/
def execRemoteCreditReturn (pkg k cause : Nat) (s : State) : Out :=
  .next (match ((s.link.sent.filter (fun p => p.1 == pkg)).map (·.2))[k]? with
    | none => s
    | some r =>
      let s := { s with link := { s.link with
        sent := s.link.sent.filter (fun p => !(p.1 == pkg && p.2.id == r.id)),
        credits := put 0 s.link.credits pkg (get 0 s.link.credits pkg - 1) } }
      let s := recEntered s r
      if cause == 0 then s else bounce s r cause)

/-! ## SPAWN and VSPAWN (R199, R200, R307, R380) -/

/-- The out-edges of a node (R196). -/
def NodeCopy.edgeTo (n : NodeCopy) (back : Bool) (k : Nat) : Bool :=
  n.edges.any (fun e => !e.getLsbD 15 && e.getLsbD 14 == back && e.toNat % 4096 == k)
def NodeCopy.remote (n : NodeCopy) : Bool := n.edges.any (fun e => e.getLsbD 15)

/-- spawn_check of R199: the record's depth. -/
def spawnCheck (s : State) (x : Ctx) (depth : Nat) (h : Dword) (size : Nat) : Except AccFault Nat :=
  let inside := (handlePkg s h).isNone && dbits h 37 32 == x.slot && dbits h 53 38 == (s.gen x.slot).toNat
  let k := dbits h 31 20
  if dbits h 19 0 != 0 then .error { code := 4 }
  else if size % 8 != 0 || size < 8 || 256 < size then .error { code := 4 }
  else if inside then
    let d := if (k == x.g.node && x.node.self) || x.node.edgeTo true k then some (depth + 1)
             else if x.node.edgeTo false k then some depth else none
    match d with
    | none => .error { code := 4 }
    | some d =>
      if (x.l.node k).rsize != size then .error { code := 4 }
      else if (x.l.node k).maxd < d then .error { code := 14, lo := BitVec.ofNat 32 d, hi := BitVec.ofNat 32 k }
      else .ok d
  else if x.node.remote then .ok 0 else .error { code := 4 }

/-- The tag and depth that a SPAWN's record takes (R200). -/
def spawnTag (x : Ctx) : Word × Nat :=
  if x.node.kind == 0 then
    match maskLanes x.co.live with
    | [] => (0, 0)
    | l :: r => ((x.co.tags.getD l (0, 0)).1, (l :: r).foldl (fun m i => max m (x.co.tags.getD i (0, 0)).2) 0)
  else (x.g.winTag, x.g.winDepth)

/-- The tag and depth of a VSPAWN lane (R200). -/
def laneTag (x : Ctx) (lane : Nat) : Word × Nat :=
  if x.node.kind == 0 then x.co.tags.getD lane (0, 0) else (x.g.winTag, x.g.winDepth)

/-- A record with a fresh identity. -/
def newRec (s : State) (x : Ctx) (h : Dword) (scope depth : Nat) (tag : Word) (payload : List Byte) (hold : Bool := false) : State × Rec :=
  let (id, s) := freshId s
  (s, { id := id, spkg := s.link.pkgid, sslot := x.slot, sgen := s.gen x.slot, slot := dbits h 37 32,
        gen := BitVec.ofNat 16 (dbits h 53 38), node := dbits h 31 20, scope := scope, depth := depth, tag := tag, handle := h,
        payload := payload, from_ := x.c, hold := hold })

/-- SPAWN (R307, R308). -/
def execSpawn (d a b : SReg) (scope : BitVec 3) (s : State) : Out :=
  let rs := pairRegs a ++ [b.toNat, d.toNat]
  issueS s { regs := rs, reads := rs, join := true, wr := true } (fun s x =>
    let off := (x.co.reg b.toNat).toNat
    let size := (x.co.reg d.toNat).toNat
    match checkLocal x 0 off size 8 with
    | some f => .fault s f
    | none => match spawnCheck s x (spawnTag x).2 (x.co.pair a.toNat) size with
      | .error f => .fault s f
      | .ok depth => match release s x.core x.t x.c scope.toNat with
        | none => .wait s
        | some s => match readLocal s x 0 off size with
          | .error (s, f) => .fault s f
          | .ok p =>
            let (s, r) := newRec s x (x.co.pair a.toNat) scope.toNat depth (spawnTag x).1 p
            .done (spawnRecs s x [r]) .seq)

/-- Record bytes of a VSPAWN. -/
def vspawnSize (w : LaneWord) : Nat := 8 * (w.mdn / 16 % 32 + 1)

/-- The records of a VSPAWN's lanes, ascending, with fresh identities. -/
def laneRecs (k : LCtx) (handle : Nat → Dword) (scope : Nat) : List (Nat × Nat) → State → State × List Rec
  | [], s => (s, [])
  | (l, depth) :: r, s =>
    let p := (List.range (vspawnSize k.w / 4)).flatMap (fun i => leBytes 4 (k.dreg i l).toNat)
    let (s, q) := newRec s k.x (handle l) scope depth (laneTag k.x l).1 p true
    let (s, qs) := laneRecs k handle scope r s
    (s, q :: qs)

/-- VSPAWN (R380, R381). -/
def execVspawn (w : LaneWord) (s : State) : Out :=
  issueL s 0x87 w (fun s k =>
    let scope := w.mdn / 2 % 8
    let handle := fun l => if w.md.getLsbD 9 then k.src64 w.a l else k.src64 w.b l
    let rs := k.act.map (fun l => (l, spawnCheck s k.x (laneTag k.x l).2 (handle l) (vspawnSize w)))
    match pickFault (rs.filterMap (fun r => match r.2 with | .error f => some f | .ok _ => none)) with
    | some f => .fault s f
    | none => match release s k.x.core k.x.t k.x.c scope with
      | none => .wait s
      | some s =>
        let ok := rs.filterMap (fun r => match r.2 with | .ok d => some (r.1, d) | .error _ => none)
        let (s, qs) := laneRecs k handle scope ok s
        .done (spawnRecs s k.x qs))

end Sys2Proof.Machine
end

