-- ==== Sys2Proof/Machine/Placement.lean ====
section
/-! DEFINITION. Where cohorts, groups and gangs are placed, what they start with, and the launch order of a die (R172 to R177,
R204 to R210, R146, R416). -/

namespace Sys2Proof.Machine

/-! ## Room on a core (R43, R48, R52, R175, R195) -/

/-- The groups of a core. -/
def groupsOn (s : State) (core : Nat) : List (Nat × Group) := s.groups.filter (fun p => p.2.core == core)
/-- The cohorts of a core that have not ended. -/
def cohortsOn (s : State) (core : Nat) : List (Nat × Cohort) :=
  let gs := (groupsOn s core).map (·.1)
  s.cohorts.filter (fun p => gs.contains p.2.grp && !p.2.ended)
/-- Cohort slots taken, and vector registers taken, of a scheduler. -/
structure SchedUse where
  slots : List Nat
  regs  : Nat
/-- What a scheduler of a core holds. -/
def schedUse (s : State) (core k : Nat) : SchedUse :=
  let cs := (cohortsOn s core).filter (fun p => p.2.sched == k)
  ⟨cs.map (·.2.cslot), (cs.map (·.2.nv)).foldl (· + ·) 0⟩
/-- Whether a scheduler can take a cohort (R175). -/
def SchedUse.takes (u : SchedUse) (nv : Nat) : Bool :=
  decide (u.slots.length < Config.cohortsPerScheduler) && decide (u.regs + nv ≤ Config.vregsPerScheduler)

/-- Schedulers and cohort slots for cohorts of given register counts, in order (R175). -/
def assignSlots : List Nat → SchedUse → SchedUse → Option (List (Nat × Nat))
  | [], _, _ => some []
  | nv :: r, u0, u1 =>
    let pick := if u0.takes nv && u1.takes nv then (if u1.regs < u0.regs then some 1 else some 0)
                else if u0.takes nv then some 0 else if u1.takes nv then some 1 else none
    match pick with
    | none => none
    | some k =>
      let u := if k == 0 then u0 else u1
      match firstFree u.slots Config.cohortsPerScheduler with
      | none => none
      | some c =>
        let u := ⟨c :: u.slots, u.regs + nv⟩
        (assignSlots r (if k == 0 then u else u0) (if k == 0 then u1 else u)).map (fun l => (k, c) :: l)

/-- Role and vector registers of each cohort of a node's group, in COHIX order (R174). -/
def NodeCopy.roles (n : NodeCopy) : List (Nat × Nat) :=
  List.replicate n.nc0 (0, n.nv0) ++ (if n.rl1 then List.replicate n.nc1 (1, n.nv1) else [])

/-- The node of a group. -/
def groupNode (s : State) (g : Group) : NodeCopy :=
  match lookup s.launches g.slot with | some l => l.node g.node | none => ⟨0, [], [], [], 0⟩

/-- Whether the allocations of a node fit beside those of a core's groups (R48, R52, R195). -/
def allocFits (s : State) (core : Nat) (n : NodeCopy) : Bool :=
  let ns := (groupsOn s core).map (fun p => groupNode s p.2)
  let fits := fun (f : NodeCopy → Nat) cap => decide ((ns.map f).foldl (· + ·) (f n) ≤ cap)
  fits NodeCopy.spsz 262144 && fits NodeCopy.wbsz 786432 && fits NodeCopy.absz 262144 && fits NodeCopy.cbsz 262144 &&
  !(n.pipe && ns.any NodeCopy.pipe)

/-- Whether a core may take work of a launch: out of reset (R462), not of a die in reset, nor quarantined, nor held by a VACATE for another, nor
closed for another gang (R177, R238, R466). -/
def coreOpen (s : State) (core t : Nat) (gang : Option Nat) : Bool :=
  let C := s.core core
  s.anvil.ready && !(s.die (core / 128)).inReset && !s.anvil.quar.contains core &&
  (C.vacated.isNone || C.vacated == some t) && (C.closed.isNone || (gang.isSome && C.closed == gang))

/-- The cohort slots that a core gives a group, if it can take it whole. -/
def coreTakes (s : State) (core t : Nat) (gang : Option Nat) (n : NodeCopy) (nvs : List Nat) : Option (List (Nat × Nat)) :=
  if coreOpen s core t gang && allocFits s core n then assignSlots nvs (schedUse s core 0) (schedUse s core 1) else none

/-- The candidate cores of a die, or of a neighbourhood of it (R209). -/
def candidateCores (die : Nat) (nb : Option Nat) : List Nat :=
  match nb with
  | some b => (List.range 8).map (fun i => die * 128 + b * 8 + i)
  | none => (List.range 128).map (die * 128 + ·)

/-- The cores that can take a group, fewest resident cohorts first, then lowest number (R209). -/
def takers (s : State) (die : Nat) (nb : Option Nat) (t : Nat) (gang : Option Nat) (n : NodeCopy) (nvs : List Nat) : List Nat :=
  let ok := (candidateCores die nb).filter (fun c => (coreTakes s c t gang n nvs).isSome)
  (sortBy (fun a b => decide (a.1 ≤ b.1)) (ok.map (fun c => ((cohortsOn s c).length, c)))).map (·.2)

/-! ## The state at launch (R146, R172, R416) -/

/-- Whether k private slots of a launch are free (R65). -/
def privRoom (l : Launch) (k : Nat) : Bool := (freeNumbers l.privUsed (min l.npriv (l.privUsed.length + k)) k).length == k

/-- The free private slots that k cohorts of a launch take (R65). -/
def freePriv (l : Launch) (k : Nat) : List Nat := pickMany l.npriv k l.privUsed

/-- The scalar registers at launch (R172). -/
def launchRegs (n : NodeCopy) (s0 ix : Nat) (wid : Dword) (role gangsz : Nat) : SMap Word :=
  let w := fun x : Nat => BitVec.ofNat 32 x
  [(0, w s0), (1, w ix), (2, wid.setWidth 32), (3, (wid >>> 32).setWidth 32), (4, w n.const), (5, w (n.const / 2 ^ 32)),
    (6, w role), (7, w gangsz), (8, w (if n.kind == 0 then 0 else n.rwo * 64))].foldl (fun m p => put 0 m p.1 p.2) []

/-- The entry anchor (R416, R432). -/
def entryAnchor (n : NodeCopy) (spc : Word) : Anchor :=
  let win := roundUp (if n.kind == 1 then n.gmax * n.rsize else n.rsize) 64 / 64
  { spc := spc, entry := { slive := 0x3FF, vlive := if n.kind == 0 then BitVec.ofNat 256 (2 ^ ((n.rsize + 3) / 4) - 1) else 0,
                           exts := if n.kind == 0 then [] else [BitVec.ofNat 32 (n.rwo * 2 ^ 15 + (n.rwo + win - 1))] } }

/-- The vector registers of a lane-node cohort: lane i holds record i (R172). -/
def recordRegs (rs : List Rec) : SMap Word :=
  (List.range rs.length).foldl (fun m lane =>
    let b := (rs[lane]?.map (·.payload)).getD []
    (List.range (b.length / 4)).foldl (fun m k => put 0 m (k * 32 + lane) (BitVec.ofNat 32 (wordAt b (4 * k)))) m) []

/-- What each cohort of a new group has in common. -/
structure Start where
  gid   : Nat
  n     : NodeCopy
  recs  : List Rec
  gangsz : Nat
  slotRole : List (Nat × Nat × Nat × Nat)
  priv  : List Nat

/-- A cohort at launch (R172). s2:s3 of a group node with several records is the work identifier of the first: the spec names a
record for lane nodes alone (DESIGN CHOICE, assumption 77). -/
def startCohort (s : State) (st : Start) (ix : Nat) : Cohort :=
  let r := st.slotRole.getD ix (0, 8, 0, 0)
  let n := st.n
  let ep := n.ep r.1
  let lane := n.kind == 0
  let live := 2 ^ st.recs.length - 1
  let wid := match st.recs with | q :: _ => payloadWid q.payload | [] => 0
  let spc := BitVec.ofNat 32 ep
  { grp := st.gid, ix := ix, role := r.1, nv := r.2.1, sched := r.2.2.1, cslot := r.2.2.2,
    s := launchRegs n (if lane then live else if n.kind == 2 then 1 else st.recs.length) ix wid r.1 st.gangsz,
    v := if lane then recordRegs st.recs else [], spc := spc, cb := BitVec.ofNat 28 (ep / 2 ^ 32),
    live := if lane then BitVec.ofNat 32 live else 0xFFFFFFFF, wid := wid, priv := st.priv.getD ix 0, age := s.clk,
    anchor := entryAnchor n spc, tags := if lane then st.recs.map (fun q => (q.tag, q.depth)) else [] }

/-- The record window written (R208). -/
def windowCells (n : NodeCopy) (rs : List Rec) : List Host.Cell :=
  if n.kind == 0 then []
  else writeCells [] ((List.range rs.length).flatMap (fun i => cellsOf (n.rwo * 64 + i * n.rsize)
    ((rs.map (·.payload)).getD i [])))

/-- 1 KiB of the constant area as the launch reads it, line by line (R146). -/
def constBytes (s : State) (core t va : Nat) : State × List Byte :=
  (List.range 16).foldl (fun acc i =>
    let a := (va + 64 * i) % 2 ^ 64
    let acc := (walked acc.1 core t a, acc.2)
    match translate acc.1 core t a .read with
    | .error x =>
      (match x with | .data pa => memError acc.1 core t pa | _ => acc.1, acc.2 ++ List.replicate 64 0)
    | .ok x =>
      if rangeBad acc.1 x.pa 64 then (memError acc.1 core t x.pa, acc.2 ++ List.replicate 64 0)
      else if cutOff acc.1 x.pa then (acc.1, acc.2 ++ List.replicate 64 0)
      else (leaves acc.1 t x.pa 64 [], acc.2 ++ readMem acc.1 x.pa 64)) (s, [])

/-- A loader or storer at its group's launch (R146). -/
def startRv (s : State) (n : NodeCopy) (sec : List Byte) (count : Nat) (wid : Dword) (win konst : List Byte) : RvCore :=
  if sec.isEmpty then {}
  else
    { mode := .running, imem := writeCells [] (cellsOf 0 sec), cyc0 := s.clk,
      dram := writeCells (writeCells [] (cellsOf 0x3800 win)) (cellsOf 0x3C00 konst),
      x := [(10, BitVec.ofNat 64 count), (11, 0x13800), (12, BitVec.ofNat 64 n.const), (13, wid),
            (14, BitVec.ofNat 64 (if n.kind == 0 then 0 else n.rwo * 64))].foldl (fun m p => put 0 m p.1 p.2) [] }

/-- A group launched on a core with its records (R172, R208). -/
def placeGroup (s : State) (slot node core : Nat) (rs : List Rec) (member size gang : Nat) : State :=
  match lookup s.launches slot with
  | none => s
  | some l =>
    let n := l.node node
    match coreTakes s core l.t (if gang == 0 then none else some gang) n (n.roles.map (·.2)) with
    | none => s
    | some places =>
      let (gid, s) := freshId s
      let count := n.roles.length
      let priv := freePriv l count
      let wid := match rs with | q :: _ => payloadWid q.payload | [] => 0
      let cells := windowCells n rs
      let off := if n.kind == 0 then 0 else n.rwo * 64
      let win := (bytesAt cells off 1024).take (n.spsz - off)
      let (s, konst) := if n.pipe then constBytes s core l.t n.const else (s, [])
      let g : Group :=
        { slot := slot, node := node, core := core, member := member, size := size, gang := gang, nco := count, sp := cells,
          recs := rs.length, winTag := (rs.map (·.tag)).headD 0, winDepth := (rs.map (·.depth)).foldl max 0,
          loader := startRv s n n.loader rs.length wid win konst, storer := startRv s n n.storer rs.length wid win konst,
          at_ := s.clk, wid := wid }
      let st : Start := ⟨gid, n, rs, if gang == 0 then 1 else member * 16 + size,
        (List.range count).map (fun i => let r := n.roles.getD i (0, 8); let p := places.getD i (0, 0); (r.1, r.2, p.1, p.2)), priv⟩
      let s := s.setGroup gid g
      let s := s.onLaunch slot (fun l => { l with privUsed := l.privUsed ++ priv })
      let s := (List.range count).foldl (fun s i =>
        let (c, s) := freshId s
        s.setCohort c (startCohort s st i)) s
      acquire s core ((rs.map (·.scope)).foldl max 0)

/-! ## Candidates (R209) -/

/-- What a die's scheduler can launch besides resume records. -/
inductive Choice where
  | formed (c : Cand)
  | gang (r : Rec)
  deriving DecidableEq, Repr

/-- The records of a choice, in queue order. -/
def choiceRecs (s : State) (die : Nat) (c : Choice) : List Rec :=
  match c with
  | .formed c => candRecs s die c
  | .gang r => [r]
/-- Slot and node of a choice. -/
def Choice.home (c : Choice) : Nat × Nat := match c with | .formed c => (c.slot, c.node) | .gang r => (r.slot, r.node)

/-- What a choice is known by. -/
def Choice.key (c : Choice) : Nat := match c with | .formed c => c.id | .gang r => r.id

/-- The gang records of a die that may launch: at the head of their queues, in the record store, their launches not ending (R176). -/
def gangRecs (s : State) (die : Nat) : List Rec :=
  let qs := dedup ((s.die die).pages.map (fun p => (p.slot, p.node)))
  let rs := qs.flatMap (fun q => match lookup s.launches q.1 with
    | none => []
    | some l => if (l.node q.2).kind == 2 && l.ending.isNone then ((s.die die).ready q.1 q.2).take 1 else [])
  sortBy (fun a b => decide (a.at_ ≤ b.at_)) rs

/-- The order within steps 3 and 4 (R209): smaller first. Of two nodes of a launch whose head records entered in the same clk the
lower index comes first, where the spec gives no order (DESIGN CHOICE, assumption 77). -/
def choiceKey (s : State) (die : Nat) (c : Choice) : List Nat :=
  match lookup s.launches c.home.1 with
  | none => []
  | some l =>
    let n := l.node c.home.2
    let rs := choiceRecs s die c
    let queue := (s.die die).recs c.home.1 c.home.2
    let drain := if 3072 < (s.die die).pagesUsed then [4096 - n.level, 64 - (rs.map (·.depth)).foldl max 0] else []
    let pos := match rs with | r :: _ => (indexOf? (fun q => q.id == r.id) queue).getD 0 | [] => 0
    drain ++ [3 - n.class_, (c.home.1 + 63 - (s.die die).served) % 64, (queue.head?.map (·.at_)).getD 0, c.home.2, pos]

/-- Lists compared place by place. -/
def listLe : List Nat → List Nat → Bool
  | [], _ => true
  | _ :: _, [] => false
  | a :: r, b :: t => if a == b then listLe r t else decide (a < b)

/-- Whether the contexts of a launch are all saved: its records wait until it is resident again (R215). -/
def allSaved (s : State) (slot : Nat) : Bool :=
  s.dies.any (fun d => d.2.resumes.any (fun r => r.slot == slot)) && !s.groups.any (fun g => g.2.slot == slot)

/-- What groups of a die have been evicted for (R189). -/
def evictedFor (s : State) (die : Nat) : List Nat := (s.die die).resumes.filterMap (·.evict)

/-- Whether a formed cohort or group may launch: every record that entered its buffer in the clk in which it formed is in it (R207),
and its launch goes on, and is resident (R215) but for what a group was evicted for. -/
def formedReady (s : State) (die : Nat) (c : Cand) : Bool :=
  match lookup s.launches c.slot with
  | none => false
  | some l => l.ending.isNone && (!allSaved s c.slot || (evictedFor s die).contains c.id) &&
      (decide (c.at_ < s.clk) || decide ((l.node c.node).packMax ≤ (candRecs s die c).length))

/-- The choices of a die in launch order (R209 steps 2 to 5), after those for whose place a group has been evicted (R189). -/
def choices (s : State) (die : Nat) : List Choice :=
  let gangs := (gangRecs s die).filter (fun r => !allSaved s r.slot || (evictedFor s die).contains r.id)
  let closed := (gangs.filter (fun r => (s.die die).closures.any (fun k => k.recId == r.id))).map Choice.gang
  let formed := ((s.die die).cands.filter (formedReady s die)).map Choice.formed
  let all := closed ++ sortBy (fun a b => listLe (choiceKey s die a) (choiceKey s die b)) (formed ++ gangs.map Choice.gang)
  let first := fun c : Choice => (evictedFor s die).contains c.key
  all.filter first ++ all.filter (fun c => !first c)

/-- The cores for a gang of k groups of a record; none when they do not fit. -/
def gangCores (s : State) (die : Nat) (l : Launch) (r : Rec) (k : Nat) : Option (List Nat) :=
  let n := l.node r.node
  let ok := takers s die (some (recNb n r)) l.t (some r.id) n (n.roles.map (·.2))
  if k ≤ ok.length && privRoom l (k * n.roles.length) then some (ok.take k) else none

/-- The cores on which a choice can be placed now (R176, R209). -/
def placesOf (s : State) (die : Nat) (c : Choice) : Option (List Nat) :=
  match lookup s.launches c.home.1 with
  | none => none
  | some l =>
    let n := l.node c.home.2
    match c with
    | .formed c =>
      if !privRoom l n.roles.length then none
      else ((takers s die c.nb l.t none n (n.roles.map (·.2))).head?).map (fun k => [k])
    | .gang r => match gangCores s die l r n.gp with
      | some cs => some cs
      | none => if r.late then gangCores s die l r n.gf else none

/-! ## Resume records (R205, R209 step 1, R434) -/

/-- The role and registers that each saved cohort needs, in COHIX order. -/
def savedCohorts (v : Saved) : List Nat := v.cohorts.map (·.nv)

/-- Distinct cores for the groups of a resume record, each taken whole. -/
def resumeCores (s : State) (die : Nat) (r : Resume) : Option (List Nat) :=
  match lookup s.launches r.slot with
  | none => none
  | some l =>
    let n := l.node r.node
    let go := fun (acc : Option (List Nat)) (v : Saved) => acc.bind (fun cs =>
      ((takers s die r.nb l.t none n (savedCohorts v)).find? (fun c => !cs.contains c)).map (fun c => cs ++ [c]))
    if l.ending.isSome then none else r.groups.foldl go (some [])

/-- The neighbourhoods in which a gang may resume: any one (R435). -/
def resumePlace (s : State) (die : Nat) (r : Resume) : Option (List Nat) :=
  if r.groups.length ≤ 1 || r.nb.isSome then resumeCores s die r
  else (List.range 16).findSome? (fun b => resumeCores s die { r with nb := some b })

/-- The private slots that a choice needs at least. -/
def privNeed (s : State) (c : Choice) : Nat :=
  match lookup s.launches c.home.1 with
  | none => 0
  | some l =>
    let n := l.node c.home.2
    n.roles.length * (match c with | .formed _ => 1 | .gang r => if r.late then n.gf else n.gp)

/-- Whether the launch of a choice has the private slots for it (R65). -/
def hasPriv (s : State) (c : Choice) : Bool := (lookup s.launches c.home.1).any (fun l => privRoom l (privNeed s c))

/-- Whether an evicted group still waits for the record to be placed for which it was evicted (R189): not while that record lacks
private slots, which saved cohorts keep. -/
def yields (s : State) (die : Nat) (r : Resume) : Bool :=
  r.evict.any (fun k => (choices s die).any (fun c => c.key == k && hasPriv s c))

/-- The first resume record that can be placed now. -/
def firstResume (s : State) (die : Nat) : Option Nat :=
  indexOf? (fun r => !yields s die r && (resumePlace s die r).isSome) (s.die die).resumes

/-! ## The events -/

/-- The groups of a choice launched on their cores. -/
def launchOn (s : State) (slot node : Nat) (rs : List Rec) (gang size : Nat) : Nat → List Nat → State
  | _, [] => s
  | i, c :: r => launchOn (placeGroup s slot node c rs i size gang) slot node rs gang size (i + 1) r

/-- A choice launched: its records are no longer queued, its closure opens (R177, R207). -/
def launchChoice (s : State) (die : Nat) (c : Choice) (cores : List Nat) : State :=
  let rs := choiceRecs s die c
  let ids := rs.map (·.id)
  let h := c.home
  let s := match c with
    | .formed _ => launchOn s h.1 h.2 rs 0 1 0 cores
    | .gang r => launchOn s h.1 h.2 rs r.id cores.length 0 cores
  let s := dropRecs s die (fun r => ids.contains r.id)
  let opened := ((s.die die).closures.filter (fun k => ids.contains k.recId)).flatMap (·.cores)
  let s := opened.foldl (fun s k => s.onCore k (fun C => { C with closed := none })) s
  s.onDie die (fun D => { D with
    cands := match c with | .formed c => D.cands.filter (fun x => x.id != c.id) | .gang _ => D.cands,
    closures := D.closures.filter (fun k => !ids.contains k.recId), served := h.1 })

/-- A die has launched in this clk: it launches at most once in each (R209). -/
def launchedNow (s : State) (die : Nat) : Bool := (s.die die).launched == some s.clk

/-- Whether the constants that a choice's loaders and storers start with can only be read later (R466). -/
def constWaits (s : State) (c : Choice) (cores : List Nat) : Bool :=
  match lookup s.launches c.home.1 with
  | none => false
  | some l => (l.node c.home.2).pipe && anyWait s && cores.any (fun core => (List.range 16).any (fun i =>
      match checkPage s core l.t (((l.node c.home.2).const + 64 * i) % 2 ^ 64) 64 .read with
      | .error f => f.code == 0
      | .ok _ => false))

/-- LAUNCH_CANDIDATE (R209): the first candidate that can be placed now. A resume record that can be placed comes first
(GROUP_RESUME). -/
def execLaunchCandidate (die : Nat) (s : State) : Out :=
  .next (if (firstResume s die).isSome || (s.die die).inReset || launchedNow s die then s
    else match (choices s die).findSome? (fun c => (placesOf s die c).map (fun p => (c, p))) with
      | some (c, cores) =>
        if constWaits s c cores then s
        else (launchChoice s die c cores).onDie die (fun D => { D with launched := some s.clk })
      | none => s)

/-- GANG_WAIT_EXPIRY (R176): a gang record has waited more than W clk. -/
def execGangWaitExpiry (die k : Nat) (s : State) : Out :=
  .next (match (gangRecs s die)[k]? with
    | none => s
    | some r => match lookup s.launches r.slot with
      | none => s
      | some l =>
        if decide (s.clk ≤ r.at_ + (l.node r.node).gwait) then s
        else s.onDie die (fun D => { D with pages := D.pages.map (fun p =>
          { p with recs := p.recs.map (fun q => if q.2.id == r.id then (q.1, { q.2 with late := true }) else q) }) }))

/-- The free room of a core (R177), which the spec does not measure: its free vector registers (DESIGN CHOICE, assumption 30). -/
def freeRoom (s : State) (core : Nat) : Nat :=
  2 * Config.vregsPerScheduler - (schedUse s core 0).regs - (schedUse s core 1).regs

/-- GANG_CLOSURE (R177): the F cores with the most free room of the home neighbourhood, of those that work, close for a gang record
that has waited more than W + 65,536 clk. -/
def execGangClosure (die k : Nat) (s : State) : Out :=
  .next (match (gangRecs s die)[k]? with
    | none => s
    | some r => match lookup s.launches r.slot with
      | none => s
      | some l =>
        let n := l.node r.node
        let nb := recNb n r
        let D := s.die die
        let earlier := ((gangRecs s die).take k).any (fun q => match lookup s.launches q.slot with
          | some m => recNb (m.node q.node) q == nb && decide (q.at_ + (m.node q.node).gwait + Config.longClk < s.clk)
          | none => false)
        if decide (s.clk ≤ r.at_ + n.gwait + Config.longClk) || earlier || D.closures.any (fun c => c.nb == nb) then s
        else
          let open_ := (candidateCores die (some nb)).filter (fun c => !s.anvil.quar.contains c)
          let best := (sortBy (fun a b => decide (b.1 ≤ a.1)) (open_.map (fun c => (freeRoom s c, c)))).map (·.2)
          let cs := best.take n.gf
          let s := cs.foldl (fun s c => s.onCore c (fun C => { C with closed := some r.id })) s
          s.onDie die (fun D => { D with closures := D.closures ++ [⟨nb, r.id, cs⟩] }))

/-! ## Spill and read-back (R94 to R96, R204) -/

/-- The full resident pages of a queue, newest first. -/
def fullPages (s : State) (die : Nat) (q : Nat × Nat) : List RecPage :=
  match lookup s.launches q.1 with
  | none => []
  | some l => (((s.die die).queue q.1 q.2).filter (fun p => p.arena.isNone && decide ((l.node q.2).pageRecs ≤ p.used))).reverse

/-- RECORD_PAGE_SPILL (R204): one page of the queue with the most resident pages goes to its launch's arena. Spilling goes on
from 3,584 pages down to 3,328. Of queues with equally many the first in page order spills (DESIGN CHOICE, assumption 77). -/
def execRecordPageSpill (die : Nat) (s : State) : Out :=
  let D := s.die die
  let qs := dedup (D.pages.map (fun p => (p.slot, p.node)))
  let able := qs.filter (fun q => !(fullPages s die q).isEmpty &&
    (lookup s.launches q.1).any (fun l => l.ending.isNone && (pickFree l.arenaUsed l.oapg).isSome))
  let resident := fun q : Nat × Nat => ((D.queue q.1 q.2).filter (fun p => p.arena.isNone)).length
  let best := able.foldl (fun (b : Option (Nat × Nat)) q => match b with
    | some x => if resident x < resident q then some q else b
    | none => some q) none
  .next (if D.pagesUsed ≤ 3328 || (D.pagesUsed ≤ 3584 && !D.spilling) then s.onDie die (fun D => { D with spilling := false })
    else match best with
      | none => s
      | some q => match (fullPages s die q).head?, lookup s.launches q.1 with
        | some p, some l => match pickFree l.arenaUsed l.oapg with
          | none => s
          | some a =>
            let s := writePage s l a 0 (pageBytes (l.node q.2) p)
            let s := s.onLaunch q.1 (fun l => { l with arenaUsed := l.arenaUsed ++ [a] })
            s.onDie die (fun D =>
              { D with spilling := true, pages := D.pages.map (fun x => if x.id == p.id then { x with arena := some a } else x) })
        | _, _ => s)

/-- The oldest spilled page of a queue with fewer than two resident pages (R204), of the first such queue in page order (DESIGN
CHOICE, assumption 77). -/
def readBackPage (s : State) (die : Nat) : Option RecPage :=
  let D := s.die die
  (dedup (D.pages.map (fun p => (p.slot, p.node)))).findSome? (fun q =>
    let ps := D.queue q.1 q.2
    if (ps.filter (fun p => p.arena.isNone)).length < 2 then ps.find? (fun p => p.arena.isSome) else none)

/-- The bytes of a spilled record as they come back: each aligned 16-byte chunk that software has written is old or new (R96). -/
def mixChunks (old now : List Byte) : Nat → State → State × List Byte
  | 0, s => (s, [])
  | k + 1, s =>
    let i := old.length / 16 - (k + 1)
    let o := (old.drop (16 * i)).take 16
    let w := (now.drop (16 * i)).take 16
    let pick := if o == w then (s, o) else ((s.drawn).2, if Config.freeChunkNew (s.drawn).1 then w else o)
    let r := mixChunks old now k pick.1
    (r.1, pick.2 ++ r.2)

/-- A record with the header fields of 16 bytes (R198), and a payload of as many of the bytes after them as they say. -/
def withHeader (r : Rec) (b : List Byte) : Rec :=
  let h := BitVec.ofNat 128 (leNat (b.take 16))
  { r with spkg := dbits h 95 86, sslot := dbits h 101 96, sgen := BitVec.ofNat 16 (dbits h 117 102), slot := dbits h 85 80,
           gen := BitVec.ofNat 16 (dbits h 79 64), node := dbits h 59 48, res := h.getLsbD 47, scope := dbits h 46 44,
           depth := dbits h 38 33, tag := BitVec.ofNat 32 (dbits h 31 0), payload := (b.drop 16).take (8 * (dbits h 43 39 + 1)) }

/-- Whether a number names another package. -/
def otherPkg (s : State) (p : Nat) : Bool := p != 1023 && p != s.link.pkgid

/-- A record of a spilled page read back (R96): one with another header is checked as a new record, and bounces to the sender that
the header names, stays, or goes on its way to the queue that it names. A size beyond the record's place takes in the bytes that
follow it in the page (assumption 14). -/
def readBackRec (die : Nat) (l : Launch) (a : Nat) (acc : State × List (Nat × Rec)) (p : Nat × Rec) : State × List (Nat × Rec) :=
  let size := (l.node p.2.node).recBytes
  let old := padTo size (recHeader p.2 ++ p.2.payload)
  let pa := arenaPa acc.1 l a + 64 + p.1 * size
  let m := mixChunks old (readMem acc.1 pa size) (size / 16) acc.1
  if m.2.take 16 == old.take 16 then (m.1, acc.2 ++ [(p.1, { p.2 with payload := (m.2.drop 16).take p.2.payload.length })])
  else
    let q := withHeader p.2 (m.2 ++ readMem m.1 (pa + size) 256)
    let q := { q with origin := if otherPkg m.1 q.spkg then 2 else q.origin }
    let cause := refusal m.1 q
    if cause != 0 then (bounce m.1 q cause, acc.2)
    else if q.sameQueue p.2 then (m.1, acc.2 ++ [(p.1, q)])
    else (m.1.onDie die (fun D => { D with transit := D.transit ++ [q] }), acc.2)

/-- RECORD_PAGE_READBACK (R95, R96, R102, R204). -/
def execRecordPageReadback (die : Nat) (s : State) : Out :=
  .next (match readBackPage s die with
    | none => s
    | some p => match p.arena, lookup s.launches p.slot with
      | some a, some l =>
        if 4096 ≤ (s.die die).pagesUsed || l.ending.isSome then s
        else if rangeBad s (arenaPa s l a) 4096 then endLaunch (memError s noCore l.t (arenaPa s l a)) p.slot 2 7
        else
          let r := p.recs.foldl (readBackRec die l a) (s, [])
          let s := (dropPage r.1 l a).onLaunch p.slot (fun l => { l with arenaUsed := l.arenaUsed.filter (· != a) })
          let s := s.onDie die (fun D => { D with
            pages := D.pages.map (fun x => if x.id == p.id then { x with arena := none, recs := r.2 } else x) })
          let s := dropRecs s die (fun _ => false)
          (buffersOf s die).foldl (fun s b => if b.1 == p.slot && b.2.1 == p.node then formFull s die b (bufRecs s die b).length else s) s
      | _, _ => s)

end Sys2Proof.Machine
end

