-- ==== Sys2Proof/Machine/Saves.lean ====
section
/-! DEFINITION. Saving, resuming and evicting groups (R132, R149, R189, R400, R401, R427 to R437). -/

namespace Sys2Proof.Machine

/-! ## The request (R427, R435) -/

/-- The groups that are saved together with a group: itself, or its whole gang. -/
def saveMates (s : State) (gid : Nat) : List Nat :=
  match lookup s.groups gid with
  | none => []
  | some g => if g.gang == 0 then [gid]
              else (s.groups.filter (fun p => p.2.gang == g.gang && p.2.slot == g.slot)).map (·.1)

/-- A save of a group, and of its gang, is requested: parked cohorts roll back and are held (R427). -/
def requestSave (s : State) (gid : Nat) : State :=
  (saveMates s gid).foldl (fun s g =>
    let s := s.onGroup g (fun g => { g with save := true })
    (cohortsOf s g).foldl (fun s p => holdParked s p.1) s) s

/-! ## The save area (R429 to R433) -/

/-- The 64-byte units that must be saved: space, first, last (R430). -/
def saveSpans (cos : List Cohort) : List (Nat × Nat × Nat) :=
  cos.flatMap (fun co =>
    co.anchor.entry.exts.map (fun e => (e.toNat / 2 ^ 30, bitsOf e.toNat 29 15, bitsOf e.toNat 14 0)) ++
    ((co.heldOps.flatMap opSpans).filter (fun p => p.2.2 != 0)).map (fun p => (p.1, p.2.1 / 64, (p.2.1 + p.2.2 - 1) / 64)))

/-- Spans in order, merged where they meet or touch: `last` is the span that still grows. -/
def growSpans (last : Nat × Nat × Nat) : List (Nat × Nat × Nat) → List (Nat × Nat × Nat)
  | [] => [last]
  | q :: t => if last.1 == q.1 && decide (q.2.1 ≤ last.2.2 + 1) then growSpans (last.1, last.2.1, max last.2.2 q.2.2) t
              else last :: growSpans q t

/-- Sorted spans merged where they meet or touch. -/
def mergeSpans (l : List (Nat × Nat × Nat)) : List (Nat × Nat × Nat) := match l with | [] => [] | p :: r => growSpans p r

/-- The extent set in table order. -/
def extentSet (cos : List Cohort) : List (Nat × Nat × Nat) :=
  mergeSpans (sortBy (fun a b => listLe [a.1, a.2.1] [b.1, b.2.1]) (saveSpans cos))

/-- An operation record (R400). -/
def opBytes (m : MatOp) : List Byte :=
  m.regs.flatMap (fun w => leBytes 4 w.toNat) ++ leBytes 4 m.ext.toNat ++ leBytes 1 m.opc ++ leBytes 1 m.ix ++ leBytes 2 0 ++
  leBytes 4 m.batch.toNat ++ leBytes 4 (m.ent * 2 ^ 16 + m.g * 2 ^ 8 + m.nb * 16 + m.mb) ++ leBytes 24 0

/-- RSTK (R284). -/
def rstkWord (depth : Nat) (ids : List (BitVec 12)) : Nat :=
  depth * 2 ^ 16 + (match ids with | i :: _ => 2 ^ 15 + i.toNat | [] => 0)

/-- The loop registers that stay live (R432). -/
def liveLoops (a : Anchor) : LoopRegs :=
  { ls0 := if a.entry.loops.getLsbD 0 then a.loops.ls0 else 0, le0 := if a.entry.loops.getLsbD 0 then a.loops.le0 else 0,
    lc0 := if a.entry.loops.getLsbD 0 then a.loops.lc0 else 0, ls1 := if a.entry.loops.getLsbD 1 then a.loops.ls1 else 0,
    le1 := if a.entry.loops.getLsbD 1 then a.loops.le1 else 0, lc1 := if a.entry.loops.getLsbD 1 then a.loops.lc1 else 0 }

/-- The live registers of an anchor. -/
def liveS (a : Anchor) : List Nat := (List.range 64).filter (fun k => a.entry.slive.getLsbD k)
def liveV (a : Anchor) : List Nat := (List.range 256).filter (fun k => a.entry.vlive.getLsbD k)

/-- A cohort context (R432). -/
def contextBytes (co : Cohort) (ep : Nat) : List Byte :=
  let a := co.anchor
  let lp := liveLoops a
  let sb := (liveS a).flatMap (fun k => leBytes 4 (co.reg k).toNat)
  leBytes 2 a.ix ++ leBytes 1 co.ix ++ leBytes 1 co.role ++ leBytes 4 a.spc.toNat ++ leBytes 4 (ep / 2 ^ 32 % 2 ^ 28) ++
  leBytes 2 co.priv ++ leBytes 1 a.entry.loops.toNat ++ leBytes 1 0 ++ leBytes 4 a.entry.stub.toNat ++
  [lp.ls0, lp.le0, lp.lc0, lp.ls1, lp.le1, lp.lc1].flatMap (fun w => leBytes 4 w.toNat) ++
  leBytes 1 a.mode.toNat ++ leBytes 1 a.fpe.toNat ++ leBytes 1 co.fpf.toNat ++ leBytes 1 0 ++
  leBytes 4 (rstkWord a.depth a.ids) ++ padTo 16 (a.ids.flatMap (fun i => leBytes 2 i.toNat)) ++
  leBytes 4 co.lcom.toNat ++ leBytes 4 co.lcpl.toNat ++ leBytes 4 (matStatus co 2).toNat ++ leBytes 4 a.retDepth ++
  leBytes 1 co.heldOps.length ++ leBytes 3 0 ++ padTo 64 (a.ret.flatMap (fun w => leBytes 8 w.toNat)) ++
  leBytes 8 a.entry.slive.toNat ++ leBytes 32 a.entry.vlive.toNat ++ padTo (roundUp sb.length 64) sb ++
  (liveV a).flatMap (fun k => lanes32.flatMap (fun l => leBytes 4 (co.vreg k l).toNat)) ++ co.heldOps.flatMap opBytes

/-- A slot of a loader or storer block (R431). -/
def slotBytes (c : Option TileCmd) : List Byte :=
  match c with
  | none => List.replicate 384 0
  | some c =>
    let has := fun i => (lookup c.held (c.rowdone + i)).isSome
    leBytes 64 c.desc.toNat ++ leBytes 8 c.ticket.toNat ++ leBytes 1 c.st ++ leBytes 1 c.fcode ++ leBytes 1 c.flags.toNat ++
    leBytes 1 c.kind ++ leBytes 4 c.rowdone ++ leBytes 8 c.rowmap.toNat ++ leBytes 8 c.tqva.toNat ++
    leBytes 8 (packElems 1 ((List.range 64).map (fun i => if has i then 1 else 0))) ++ leBytes 4 c.hinc ++ leBytes 4 0 ++
    leBytes 8 c.fwait.toNat ++ leBytes 8 0 ++ (List.range 64).flatMap (fun i => leBytes 4 (get 0 c.held (c.rowdone + i)).toNat)

/-- A loader or storer block (R431). -/
def rvBytesOf (r : RvCore) : List Byte :=
  (List.range 31).flatMap (fun i => leBytes 8 (get 0 r.x (i + 1)).toNat) ++ leBytes 8 r.pc.toNat ++ leBytes 8 r.rowsel.toNat ++
  leBytes 8 r.tqtick.toNat ++ leBytes 1 (match r.mode with | .running => 0 | .ended => 1 | .halted => 2) ++
  leBytes 1 (if r.mode == .halted then r.hcode else 0) ++ leBytes 1 (if r.mode == .halted && r.hdlv then 1 else 0) ++
  leBytes 5 0 ++ leBytes 8 r.fnext.toNat ++ leBytes 224 0 ++ bytesAt r.dram 0 16384 ++
  (List.range 8).flatMap (fun i => slotBytes (lookup r.slots i))

/-- The save area of a group with its held cohorts (R429, R430). -/
def saveArea (s : State) (n : NodeCopy) (g : Group) (cos : List Cohort) : List Byte :=
  let exts := extentSet cos
  let table := roundUp (8 * exts.length) 64
  let datas := exts.map (fun e => g.read e.1 (e.2.1 * 64) ((e.2.2 - e.2.1 + 1) * 64))
  let header := leBytes 2 g.node ++ leBytes 1 cos.length ++ leBytes 1 ((if n.pipe then 1 else 0) + (if g.gang != 0 then 2 else 0)) ++
    leBytes 1 (if g.gang != 0 then g.member else 0) ++ leBytes 1 g.size ++ leBytes 2 exts.length ++ leBytes 8 s.clk ++ leBytes 48 0
  let entries := (List.range exts.length).flatMap (fun i =>
    let e := exts.getD i (0, 0, 0)
    leBytes 4 (e.1 * 2 ^ 30 + e.2.1 * 2 ^ 15 + e.2.2) ++
    leBytes 4 (64 + table + ((datas.take i).map List.length).foldl (· + ·) 0))
  header ++ padTo table entries ++ datas.flatten ++ (if n.pipe then rvBytesOf g.loader ++ rvBytesOf g.storer else []) ++
  cos.flatMap (fun co => contextBytes co (n.ep co.role))

/-- The resume page (R429). -/
def resumePage (pages : List Nat) (size : Nat) : List Byte :=
  padTo 4096 (leBytes 4 pages.length ++ leBytes 4 size ++ leBytes 120 0 ++ pages.flatMap (leBytes 4))

/-! ## The save (R428) -/

/-- Whether a cohort of a group to be saved is held, and its results are without error. -/
def cohortHeld (co : Cohort) : Bool := co.ended || (co.park == some .saved && !co.handler && co.pend.all (fun p => p.bad.isNone))

/-- Whether some cohorts of a core have a write to another package on its way. -/
def remoteWrites (s : State) (C : Core) (own : Nat → Bool) : Bool :=
  (C.queue ++ C.stores).any (fun r => own r.c && toRemote s r) || C.reds.any (fun q => own q.c && remotePa s q.pa)

/-- Whether a group can be saved now: every cohort held or ended, every batch of an ended cohort complete (R400, R428 steps 1 to 3), no
row of a tile command half landed (R149), no record of it on its way to a queue (R201), no write of it without its acknowledgement
(R132, R428 step 2), and the group not halted (R445). -/
def saveReady (s : State) (gid : Nat) : Bool :=
  match lookup s.groups gid with
  | none => false
  | some g =>
    let cs := cohortsOf s gid
    g.save && g.halt.isNone && cs.all (fun p => cohortHeld p.2) &&
    cs.all (fun p => !p.2.ended || p.2.batchesDone) &&
    !(s.core g.core).engine.any (fun m => cs.any (fun p => p.1 == m.c && p.2.ended)) &&
    ([g.loader, g.storer].all (fun (r : RvCore) => r.slots.all (fun (c : Nat × TileCmd) => !c.2.rowsOut))) &&
    !remoteWrites s (s.core g.core) (fun c => cs.any (fun p => p.1 == c)) &&
    !s.dies.any (fun d => d.2.transit.any (fun r => r.origin == 0 && cs.any (fun p => p.1 == r.from_)))

/-- The operations of a cohort that have finished leave the engine (R397, R400): n bounds their number. -/
def finishOps (s : State) (core c : Nat) : Nat → State
  | 0 => s
  | n + 1 => match indexOf? (fun m => m.c == c && MatOp.finished m) (s.core core).engine with
    | none => s
    | some k => match (s.core core).engine[k]? with
      | some m => finishOps (finishOp s core k m) core c n
      | none => s

/-- Steps 2 and 3 for one cohort: its accesses are performed, its held VLDFs cancelled, its operations become records (R132, R400). A
VLDF that has been answered with status 0 ends as the acquire that it is (R61, R122). -/
def settleCohort (s : State) (core t c : Nat) : State :=
  let s := endFutures (settleOwn s core t c (s.core core).seq) core t c
  let s := drainStores (drainRedos s core t c) core
  let s := if filled s c then acquire s core 3 else s
  let s := finishOps s core c (s.core core).engine.length
  let ops := (s.core core).engine.filter (fun m => m.c == c)
  let s := s.onCohort c (fun co =>
    let co := co.pend.foldl Cohort.deliver co
    { co with pend := [], heldOps := co.heldOps ++ ops, bflags := [],
              fpf := (co.bflags.foldl (fun (f : BitVec 5) b => f ||| b.2) 0).setWidth 32 ||| co.fpf })
  s.onCore core (fun C => keepOps C (fun m => m.c != c))

/-- A loader or storer as it is saved: commands keep their progress, and wait on nothing (R149); a rejected row still stops its
command (R157). -/
def savedRv (r : RvCore) : RvCore :=
  { r with slots := r.slots.map (fun p => (p.1, { p.2 with waits := [], out := [], bitmap := [] })), lr := none }

/-- The cells of a space that lie in an extent. -/
def keptCells (exts : List (Nat × Nat × Nat)) (sp : Nat) (m : List Host.Cell) : List Host.Cell :=
  m.filter (fun c => exts.any (fun e => e.1 == sp && decide (e.2.1 ≤ c.1 / 64) && decide (c.1 / 64 ≤ e.2.2)))

/-- The uncorrectable doublewords that lie in an extent: what is saved of them stays in error (R40, assumption 74). -/
def keptBad (exts : List (Nat × Nat × Nat)) (bad : List (Nat × Nat)) : List (Nat × Nat) :=
  bad.filter (fun b => exts.any (fun e => e.1 == b.1 && decide (e.2.1 ≤ b.2 / 64) && decide (b.2 / 64 ≤ e.2.2)))

/-- A group written to its save area (R428 steps 2 to 6): the state, and what is saved. None where the arena has too few
pages (R433). k kept pages of the store are given to groups of the same save (R205). -/
def saveGroup (s : State) (gid k : Nat) : Option (State × Saved) :=
  match lookup s.groups gid with
  | none => none
  | some g => match lookup s.launches g.slot with
    | none => none
    | some l =>
      let n := l.node g.node
      let live := (cohortsOf s gid).filter (fun p => !p.2.ended)
      let s := live.foldl (fun s p => settleCohort s g.core l.t p.1) s
      let cos := sortBy (fun a b => decide (a.ix ≤ b.ix)) (((cohortsOf s gid).map (·.2)).filter (fun co => !co.ended))
      let g := (lookup s.groups gid).getD g
      let area := saveArea s n g cos
      let count := (area.length + 4095) / 4096
      let pages := pickMany l.oapg count l.arenaUsed
      if (freeNumbers l.arenaUsed (min l.oapg (l.arenaUsed.length + count)) count).length != count || 992 < count then none
      else
        let s := (List.range count).foldl (fun s i => writeArena s l (pages.getD i 0) 0 ((area.drop (4096 * i)).take 4096)) s
        let s := s.onLaunch g.slot (fun l => { l with arenaUsed := l.arenaUsed ++ pages })
        let exts := extentSet cos
        let g' : Group :=
          { g with sp := keptCells exts 0 g.sp, wb := keptCells exts 1 g.wb, ab := keptCells exts 2 g.ab, cb := keptCells exts 3 g.cb,
                   loader := savedRv g.loader, storer := savedRv g.storer, save := false, waits := [], racy := [], bad := keptBad exts g.bad }
        let kept := (s.die (g.core / 128)).pagesUsed + k < 4096
        let page := if kept then none else pickFree (l.arenaUsed ++ pages) l.oapg
        if !kept && page.isNone then none
        else
          let l := (lookup s.launches g.slot).getD l
          let s := match page with
            | some a => (writeArena s l a 0 (resumePage pages area.length)).onLaunch g.slot (fun l => { l with arenaUsed := l.arenaUsed ++ [a] })
            | none => s
          some (s, { grp := g', cohorts := cos, pages := pages, rpage := page })

/-- Step 7: a saved group leaves its core. -/
def leaveCore (s : State) (gid : Nat) : State :=
  { s with groups := erase s.groups gid, cohorts := s.cohorts.filter (fun p => p.2.grp != gid) }

/-- The groups of one save, each as it is saved, k kept pages being given already; none where pages are missing. -/
def saveAll : List Nat → State → Nat → Option (State × List Saved)
  | [], s, _ => some (s, [])
  | g :: r, s, k => match saveGroup s g k with
    | none => none
    | some (s, v) => (saveAll r (leaveCore s g) (if v.rpage.isNone then k + 1 else k)).map (fun p => (p.1, v :: p.2))

/-- The header of the resume record of a group (R198, R200; its tag and depth are those of assumption 68). -/
def resumeHeader (s : State) (g : Group) (tags : List (Word × Nat)) : Rec :=
  let top := match tags with | p :: r => (p.1, (p :: r).foldl (fun (m : Nat) (q : Word × Nat) => max m q.2) 0) | [] => (g.winTag, g.winDepth)
  { id := 0, spkg := s.link.pkgid, sslot := g.slot, sgen := s.gen g.slot, slot := g.slot, gen := s.gen g.slot, node := g.node,
    scope := 3, depth := top.2, tag := top.1, payload := [], res := true }

/-- The open captures of a tenant note that one of its groups was saved (R448). -/
def captureSaved (s : State) (t : Nat) : State :=
  s.onTenant t (fun T => { T with caps := T.caps.map (fun c => { c with int := true }) })

/-- GROUP_SAVE (R428, R435). -/
def execGroupSave (g : Nat) (s : State) : Out :=
  .next (match lookup s.groups g with
    | none => s
    | some gr => match lookup s.launches gr.slot with
      | none => s
      | some l =>
        if l.ending.isSome || !(saveMates s g).all (saveReady s) then s
        else match saveAll (saveMates s g) s 0 with
          | none => endLaunch s gr.slot 2 0x10
          | some (s', vs) =>
            let n := l.node gr.node
            let nb := if n.near then some (gr.core % 128 / 8) else none
            let hdr := resumeHeader s gr (vs.flatMap (fun v => v.cohorts.flatMap (·.tags)))
            (captureSaved s' l.t).onDie (gr.core / 128) (fun D =>
              { D with resumes := D.resumes ++ [⟨gr.slot, gr.node, nb, s.clk, vs, hdr, (saveMates s g).findSome? (fun i => (lookup s.groups i).bind (·.evict))⟩] }))

/-! ## The resume (R434) -/

/-- A cohort as it is restored on a scheduler and slot (R434 steps 4 and 5); a live register that held an error holds it still (R40). -/
def restoredCohort (co : Cohort) (clk sched cslot : Nat) : Cohort :=
  let a := co.anchor
  { grp := co.grp, ix := co.ix, role := co.role, nv := co.nv, sched := sched, cslot := cslot,
    s := co.s.filter (fun p => (liveS a).contains p.1), v := co.v.filter (fun p => (liveV a).contains (p.1 / 32)),
    spc := a.spc, cb := co.cb, live := co.live, mode := a.mode, fpe := a.fpe, fpf := co.fpf, loops := liveLoops a,
    depth := a.depth, ids := a.ids, wid := co.wid, retDepth := a.retDepth, ret := a.ret, priv := co.priv, age := clk,
    anchor := { a with loops := liveLoops a },
    lcom := co.lcom, lcpl := co.lcpl, openOps := co.openOps, frep := co.frep,
    locks := co.heldOps.flatMap (fun m => (regionsOf m.cBase m.cSpan).map (fun r => (m.batch, r))), heldOps := co.heldOps,
    tags := co.tags, badS := co.badS.filter (liveS a).contains, badV := co.badV.filter (fun k => (liveV a).contains (k / 32)) }

/-- One saved group restored on a core (R434 steps 2 to 6). -/
def restoreGroup (s : State) (gid core : Nat) (v : Saved) : State :=
  match lookup s.launches v.grp.slot with
  | none => s
  | some l => match coreTakes s core l.t none (l.node v.grp.node) (savedCohorts v) with
    | none => s
    | some places =>
      let run := fun r : RvCore => { r with cyc0 := s.clk, instret := 0 }
      let s := s.setGroup gid { v.grp with core := core, at_ := s.clk, evict := none, loader := run v.grp.loader, storer := run v.grp.storer }
      let s := s.onLaunch v.grp.slot (fun l => { l with
        arenaUsed := l.arenaUsed.filter (fun p => !v.pages.contains p && v.rpage != some p) })
      let s := acquire s core 3
      (List.range v.cohorts.length).foldl (fun s i =>
        match v.cohorts[i]? with
        | none => s
        | some co =>
          let p := places.getD i (0, 0)
          let (c, s) := freshId s
          let s := s.setCohort c { restoredCohort co s.clk p.1 p.2 with
            grp := gid, heldOps := co.heldOps.map (fun m => { m with c := c, since := 0, granted := false }) }
          match ctxOf s c with
          | none => s
          | some x => continueCohort s x) s

/-- The groups of a resume record restored on their cores; a gang keeps one identity. -/
def restoreAll (s : State) : List Saved → List Nat → State
  | v :: vs, c :: cs =>
    let (gid, s) := freshId s
    restoreAll (restoreGroup s gid c v) vs cs
  | _, _ => s

/-- GROUP_RESUME (R209 step 1, R434, R435). -/
def execGroupResume (die k : Nat) (s : State) : Out :=
  .next (if firstResume s die != some k || (s.die die).inReset || launchedNow s die then s
    else match (s.die die).resumes[k]? with
      | none => s
      | some r => match resumePlace s die r with
        | none => s
        | some cores =>
          let s := s.onDie die (fun D => { D with resumes := D.resumes.eraseIdx k, served := r.slot, launched := some s.clk })
          restoreAll s r.groups cores)

/-! ## Eviction (R189) -/

/-- Whether a cohort has been parked on a BAR.WAIT or a held VLDF for more than 65,536 clk. -/
def parkedLong (s : State) (c : Nat) (co : Cohort) : Bool :=
  match co.park with
  | some (.barrier _ _) => decide (co.parkAt + Config.longClk < s.clk)
  | some .results =>
    let long := fun q : FutReq => q.pkg.isNone && q.c == c && decide (max co.parkAt q.at_ + Config.longClk < s.clk)
    s.slices.any (fun p => p.2.held.any long) || s.cores.any (fun p => p.2.freqs.any (fun q => q.away && long q))
  | _ => false

/-- Whether a group has been parked whole for as long, and may be saved. -/
def parkedWhole (s : State) (gid : Nat) (g : Group) : Bool :=
  let cs := (cohortsOf s gid).filter (fun p => !p.2.ended)
  !g.save && g.halt.isNone && !cs.isEmpty && cs.all (fun p => parkedLong s p.1 p.2 && !p.2.handler)

/-- Whether a group may be evicted: a gang member only with its whole gang, every group of which is parked (assumption 70). -/
def evictable (s : State) (gid : Nat) : Bool :=
  (saveMates s gid).all (fun i => (lookup s.groups i).any (fun g => parkedWhole s i g))

/-- The candidate cores of a choice on a die. -/
def choiceCores (s : State) (die : Nat) (c : Choice) : List Nat :=
  match c with
  | .formed c => candidateCores die c.nb
  | .gang r => match lookup s.launches r.slot with
    | some l => candidateCores die (some (recNb (l.node r.node) r))
    | none => []

/-- What of a group's launch waits, because its eligible cores are full, for a core of the group that takes work: the first of it. One
that lacks private slots does not wait for room (R65). -/
def waitingFor (s : State) (die : Nat) (g : Group) : Option Choice :=
  (choices s die).find? (fun c => c.home.1 == g.slot && (placesOf s die c).isNone && hasPriv s c && (choiceCores s die c).contains g.core &&
    (lookup s.launches g.slot).any (fun l => coreOpen s g.core l.t (match c with | .formed _ => none | .gang r => some r.id)))

/-- GROUP_EVICTION (R189): the youngest eligible group of the die, at most one in 4,096 clk; what waits takes the freed room. -/
def execGroupEviction (die g : Nat) (s : State) : Out :=
  .next (match lookup s.groups g with
    | none => s
    | some gr =>
      let ok := fun (p : Nat × Group) => (waitingFor s die p.2).isSome && evictable s p.1
      let soon := match (s.die die).evictAt with | some c => decide (s.clk < c + 4096) | none => false
      if soon || !ok (g, gr) || s.groups.any (fun p => ok p && decide (gr.at_ < p.2.at_)) then s
      else
        let s := s.onGroup g (fun gr => { gr with evict := (waitingFor s die gr).map Choice.key })
        (requestSave s g).onDie die (fun D => { D with evictAt := some s.clk }))

end Sys2Proof.Machine
end

