-- ==== Sys2Proof/Machine/SliceEvents.lean ====
section
/-! DEFINITION. What happens to requests on their way: at home slices, at other packages, and in the first-level data cache
(R62, R72, R77, R78, R82, R87, R91, R119, R133, R455, R457). -/

namespace Sys2Proof.Machine

/-- Whether the oldest queued store of a cohort must stay in its queue: a read of the cohort before it has no value yet (R110), or a
reduction before it is to be performed first (R109, R458). -/
def staysQueued (s : State) (C : Core) (r : StoreReq) : Bool :=
  readsOut s C r.c r.seq 0 ||
  C.reds.any (fun q => q.c == r.c && decide (q.seq < r.seq) && near s (wordBytes q.pa q.w64) (storePas r))

/-- The oldest store of a cohort leaves its queue into the core's store order (R111). -/
def storeLeaves (s : State) (core c : Nat) : State :=
  let C := s.core core
  match queuedBy C c with
  | [] => s
  | r :: _ => if staysQueued s C r then s else enterOrder (s.setCore core { C with queue := C.queue.erase r }) core r

/-- Whether an earlier store of the store order must be performed before one. -/
def earlierFollows (s : State) (earlier : List StoreReq) (r : StoreReq) : Bool := earlier.any (fun e => follows s e r)

/-- HOME_SLICE_WRITE (R119): a write of this package or of system space is applied. -/
def execHomeSliceWrite (core k : Nat) (s : State) : Out :=
  let C := s.core core
  .next (match C.stores[k]? with
    | none => s
    | some r =>
      if earlierFollows s (C.stores.take k) r || toRemote s r || !homeReady s (storePa r) then s
      else runStore (s.setCore core { C with stores := C.stores.eraseIdx k }) core r)

/-- Whether a reduction on its way must wait for an earlier request of its core. -/
def redWaits (s : State) (C : Core) (q : RedReq) : Bool := mustWait s C q.c q.seq 0 (wordBytes q.pa q.w64) true

/-- REMOTE_WRITE_ACKNOWLEDGEMENT (R133, R457): a write to another package, a store or, after all the stores, a reduction, is performed
there, or refused and counted. -/
def execRemoteWriteAcknowledgement (core k : Nat) (refused : Bool) (s : State) : Out :=
  let C := s.core core
  .next (match C.stores[k]?, C.reds[k - C.stores.length]? with
    | some r, _ =>
      if earlierFollows s (C.stores.take k) r || !toRemote s r then s
      else
        let s := s.setCore core { C with stores := C.stores.eraseIdx k }
        if refused then lostWrite s r.t else runStore s core r
    | none, some q =>
      if redWaits s C q || !remotePa s q.pa then s
      else
        let s := s.setCore core { C with reds := C.reds.eraseIdx (k - C.stores.length) }
        if refused then lostWrite s q.t else runRed s core q
    | none, none => s)

/-- REMOTE_TIMEOUT (R455, R457): a write to another package that has no response, a store or, after all the stores, a reduction, is not
performed, and counts. -/
def execRemoteTimeout (core k : Nat) (s : State) : Out :=
  let C := s.core core
  .next (match C.stores[k]?, C.reds[k - C.stores.length]? with
    | some r, _ => if toRemote s r then lostWrite (s.setCore core { C with stores := C.stores.eraseIdx k }) r.t else s
    | none, some q =>
      if remotePa s q.pa then lostWrite (s.setCore core { C with reds := C.reds.eraseIdx (k - C.stores.length) }) q.t else s
    | none, none => s)

/-- SLICE_ATOMIC (R77). -/
def execSliceAtomic (core k : Nat) (s : State) : Out :=
  let C := s.core core
  .next (match C.atoms[k]? with
    | none => s
    | some q =>
      if homeReady s q.pa && !mustWait s C q.c q.seq q.tag (wordBytes q.pa q.w64) true then
        runAtom (s.setCore core { C with atoms := C.atoms.eraseIdx k }) core q
      else s)

/-- REDUCTION_APPLY (R78): a reduction of this package's memory; REMOTE_WRITE_ACKNOWLEDGEMENT performs any other. -/
def execReductionApply (core k : Nat) (s : State) : Out :=
  let C := s.core core
  .next (match C.reds[k]? with
    | none => s
    | some q =>
      if homeReady s q.pa && !redWaits s C q && !remotePa s q.pa then
        runRed (s.setCore core { C with reds := C.reds.eraseIdx k }) core q
      else s)

/-- FUTURE_REQUEST (R82): another package answers when the cell is full. It waits while an earlier VLDF of its cohort has no answer
(R114). A cohort that waits for the answer, and must leave its core, is held once its request is (R427). -/
def execFutureRequest (core k : Nat) (s : State) : Out :=
  let C := s.core core
  .next (match C.freqs[k]? with
    | none => s
    | some q =>
      if !homeReady s q.pa || (!q.away && futureWaits s C q) then s
      else match ctxOf s q.c with
        | none => s
        | some x => holdParked (runFut (s.setCore core { C with freqs := C.freqs.eraseIdx k }) core x.t q) q.c)

/-- VREDO_ENTRY (R87). -/
def execVredoEntry (core k : Nat) (s : State) : Out :=
  let C := s.core core
  .next (match C.redos[k]? with
    | none => s
    | some e => match lookup s.launches e.slot with
      | none => s
      | some l =>
        if homeReady s e.pa then runRedo (s.setCore core { C with redos := C.redos.eraseIdx k }) core l.t e else s)

/-- A slice evicts a line to HBM4E (R102): a line that holds an uncorrectable error stays bad there. -/
def lineEvicted (s : State) (line : Nat) : State :=
  let k := homeSlice (line * 64)
  if !(s.slice k).bad.contains line then s
  else (addError s ⟨2, true, sliceDie k, 255, noCore, line * 64⟩).onSlice k (fun sl => { sl with bad := sl.bad.filter (· != line) })

/-- L1D_LINE_EXPIRY (R62): a line leaves, at the latest 8,192 clk after its fill. -/
def execL1dLineExpiry (core k : Nat) (s : State) : Out :=
  .next (s.onCore core (fun C => { C with l1d := C.l1d.eraseIdx k }))

/-! ## The ordered flush (R88 to R93) -/

/-- An entry of the overflow area as its bytes read. -/
def redoEntryOf (b : List Byte) : RedoEntry :=
  let n := leNat b
  { c := 0, slot := bitsOf n 57 52, pa := bitsOf n 51 2 * 4, ty := n % 4, key := BitVec.ofNat 32 (bitsOf n 95 64),
    val := BitVec.ofNat 32 (bitsOf n 127 96) }

/-- The entry that a used place of an area holds as the Q7 reads it back: where software has changed it, its whole old or its whole
new contents, which is a free value (R88, assumption 14). -/
def readBack (s : State) (base : Nat) (p : Nat × RedoEntry) : RedoEntry :=
  let old := redoBytes p.2
  let new := readMem s (canonPa s (base + 16 * p.1)) 16
  if old == new then redoEntryOf new
  else if Config.freePick [leNat old, leNat new] 2 % 2 == 0 then redoEntryOf old else redoEntryOf new

/-- The home slice of an entry's word. -/
def entryHome (s : State) (e : RedoEntry) : Nat := homeSlice (canonPa s e.pa)

/-- The used places of a tenant's area whose entries are homed at a slice and name a launch slot, with those entries. An entry
that software changed so that its SLOT names another tenant's launch or none is no flush's: it keeps its place, and nothing
applies, discards or counts it (R88 does not say; DESIGN CHOICE, assumption 14). -/
def areaEntries (s : State) (t sl slot : Nat) : List (Nat × RedoEntry) :=
  let T := s.tenant t
  match T.area with
  | none => []
  | some a => (T.areaUsed.map (fun p => (p.1, readBack s a.1 p))).filter (fun p => p.2.slot == slot && entryHome s p.2 == sl)

/-- The home slices of the entries in a tenant's area. -/
def areaHomes (s : State) (T : Tenant) : List Nat :=
  match T.area with
  | none => []
  | some a => T.areaUsed.map (fun p => entryHome s (readBack s a.1 p))

/-- Whether a place of a tenant's area lies in a line that holds an uncorrectable error. -/
def placeBad (s : State) (T : Tenant) (i : Nat) : Bool := T.area.any (fun a => rangeBad s (canonPa s (a.1 + 16 * i)) 16)

/-- Whether a flush refuses an entry (R88). A word of this package may stand in a window under either of its addresses (R17). -/
def entryRefused (s : State) (T : Tenant) (e : RedoEntry) : Bool :=
  let own := canonPa s e.pa
  e.ty == 3 || decide (placeOf s e.pa ≠ .hbm) ||
    !(inWritableWindow T e.pa 4 || inWritableWindow T own 4 ||
      (s.link.pkgid != 1023 && inWritableWindow T (2 ^ 51 + s.link.pkgid * 2 ^ 40 + own) 4))

/-- The order of a flush: word, then key (R91). Entries that are equal in both come in any order (R92): their ranks are free
values. -/
def entryLe (a b : Nat × RedoEntry) : Bool :=
  decide (a.2.pa < b.2.pa) || (a.2.pa == b.2.pa && (decide (a.2.key.toNat < b.2.key.toNat) ||
    (a.2.key == b.2.key && decide (a.1 ≤ b.1))))

/-- Entries with a free rank each, and the state that has drawn them. -/
def ranked (s : State) (es : List RedoEntry) : State × List (Nat × RedoEntry) :=
  ({ s with draw := s.draw + 1 }, (List.range es.length).zipWith (fun i e => (Config.freePick [s.draw] i, e)) es)

/-- An entry discarded for an uncorrectable error at an address (R89, R102): the launch's flush ends with F_DATA, and REDLOST counts
the entry (assumption 56). -/
def entryLost (core t slot : Nat) (s : State) (pa : Nat) : State :=
  (memError s core t pa).onLaunch slot (fun l => { l with flushErr := 7, redlost := l.redlost + 1 })

/-- One entry applied (R91); an uncorrectable word discards it (R102). -/
def applyEntry (core t slot : Nat) (s : State) (e : RedoEntry) : State :=
  if rangeBad s e.pa 4 then entryLost core t slot s e.pa
  else
    let w := leNat (readMem s e.pa 4)
    let v := match e.ty with
      | 0 => (fadd f32 0 false w e.val.toNat).1
      | 1 => addHalves f16 w e.val.toNat
      | _ => addHalves bf16 w e.val.toNat
    targetWrite s core t (cellsOf e.pa (leBytes 4 v))

/-- The flush of a launch at a slice (R91). An entry whose place in the overflow area cannot be read is discarded like one whose word
cannot (assumption 58). -/
def flushSlice (s : State) (sl slot : Nat) : State :=
  match lookup s.launches slot with
  | none => s
  | some l =>
    let T := s.tenant l.t
    let area := areaEntries s l.t sl slot
    let lost := area.filter (fun p => placeBad s T p.1)
    let mine := (s.slice sl).redo.filter (fun e => e.slot == slot)
    let all := mine ++ (area.filter (fun p => !placeBad s T p.1)).map (·.2)
    let bad := all.filter (entryRefused s T)
    let good := (all.filter (fun e => !entryRefused s T e)).map (fun e => { e with pa := canonPa s e.pa })
    let s := lost.foldl (fun s p => entryLost noCore l.t slot s (T.area.elim 0 (fun a => canonPa s (a.1 + 16 * p.1)))) s
    let r := ranked s good
    let s := (sortBy entryLe r.2).foldl (fun s e => applyEntry noCore l.t slot s e.2) r.1
    let s := s.onSlice sl (fun x => { x with redo := x.redo.filter (fun e => e.slot != slot) })
    let s := s.onTenant l.t (fun T => { T with areaUsed := T.areaUsed.filter (fun p => !(area.map (·.1)).contains p.1) })
    s.onLaunch slot (fun l => { l with redlost := l.redlost + bad.length })

/-- A packet after one of its slices has flushed. -/
def packetFlushed (sl slot : Nat) (p : WinPkt) : WinPkt :=
  match p.state with
  | .flushing k ss => if k == slot then { p with state := .flushing k (ss.filter (· != sl)) } else p
  | _ => p

/-- Whether a REDFLUSH waits for a slice. -/
def flushWanted (s : State) (sl slot : Nat) : Bool :=
  s.queues.any (fun q => q.2.window.any (fun p => match p.state with
    | .flushing k ss => k == slot && ss.contains sl
    | _ => false))

/-- ORDERED_FLUSH (R90, R91): a slice flushes the entries of a launch that a REDFLUSH names. -/
def execOrderedFlush (slice slot : Nat) (s : State) : Out :=
  .next (if flushWanted s slice slot then
    let s := flushSlice s slice slot
    { s with queues := s.queues.map (fun q => (q.1, { q.2 with window := q.2.window.map (packetFlushed slice slot) })) }
  else s)

end Sys2Proof.Machine
end

