-- ==== Sys2Proof/Machine/LaunchEnds.lean ====
section
/-! DEFINITION. How a launch ends: completion, destruction, a fault, and F_DEAD (R130, R190, R193, R206, R232, R235, R415). -/

namespace Sys2Proof.Machine

/-! ## Accesses of a tenant performed (R130) -/

/-- Whether a write of a tenant to another package has no acknowledgement. -/
def remoteOutstanding (s : State) (t : Nat) : Bool :=
  s.cores.any (fun p => p.2.stores.any (fun r => r.t == t && toRemote s r) || p.2.reds.any (fun q => q.t == t && remotePa s q.pa))

/-- The cohorts of a tenant that have requests on their way in a core. -/
def senders (C : Core) (t : Nat) : List Nat :=
  dedup ((C.queue.filter (fun r => r.t == t)).map (·.c) ++ (C.atoms.filter (fun q => q.t == t)).map (·.c) ++
    (C.reds.filter (fun q => q.t == t)).map (·.c))

/-- Everything that a tenant's cohorts have on its way in a core performed, but for writes to other packages. -/
def drainTenantCore (t slot : Nat) (s : State) (core : Nat) : State :=
  let s := (senders (s.core core) t).foldl (fun s c => holdParked (settleOwn s core t c (s.core core).seq) c) s
  let C := s.core core
  let s := s.setCore core { C with redos := C.redos.filter (fun e => e.slot != slot) }
  let s := (C.redos.filter (fun e => e.slot == slot)).foldl (fun s e => runRedo s core t e) s
  settleWhere s core (fun r => r.t == t && !toRemote s r)

/-- The same for every core. -/
def drainTenant (s : State) (t slot : Nat) : State := (s.cores.map (·.1)).foldl (drainTenantCore t slot) s

/-- Every slice flushes the entries of a launch (R90, R91). -/
def flushAll (s : State) (t slot : Nat) : State :=
  (dedup (s.slices.map (·.1) ++ areaHomes s (s.tenant t))).foldl (fun s sl => flushSlice s sl slot) s

/-! ## Stopping and discarding (R193, R415) -/

/-- Whether a record of another package's queue was sent by a launch (R193). -/
def sentBy (s : State) (slot : Nat) (r : Rec) : Bool := r.sslot == slot && r.sgen == s.gen slot

/-- Records of a launch's spawners that have not entered a queue, here or in another package, and records in its queues (R193). -/
def discardCount (s : State) (slot : Nat) : Nat :=
  let gen := s.gen slot
  let sent := fun r : Rec => r.origin == 0 && r.sslot == slot && r.sgen == gen
  (s.dies.map (fun d => (d.2.transit.filter sent).length +
    ((d.2.pages.filter (fun p => p.slot == slot)).map (fun p => p.recs.length)).foldl (· + ·) 0 +
    ((d.2.resumes.filter (fun r => r.slot == slot)).map (fun r => r.groups.length)).foldl (· + ·) 0)).foldl (· + ·) 0 +
  (s.cohorts.map (fun p => match lookup s.groups p.2.grp with
    | some g => if g.slot == slot then p.2.outbox.length else 0
    | none => 0)).foldl (· + ·) 0 +
  (s.link.sent.filter (fun p => sentBy s slot p.2)).length

/-- The records that a launch has sent over UALink, and that have not entered, taken back with their credits. -/
def dropSent (s : State) (slot : Nat) : State :=
  let gone := s.link.sent.filter (fun p => sentBy s slot p.2)
  { s with link := { s.link with
    sent := s.link.sent.filter (fun p => !sentBy s slot p.2),
    credits := gone.foldl (fun m p => put 0 m p.1 (get 0 m p.1 - 1)) s.link.credits } }

/-- The records, resume records and closures of a launch taken out of the dies. -/
def dropRecords (s : State) (slot : Nat) : State :=
  let gen := s.gen slot
  let sent := fun r : Rec => (r.origin == 0 && r.sslot == slot && r.sgen == gen) || (r.origin == 1 && r.slot == slot)
  let shut := s.dies.flatMap (fun d => d.2.closures.filter (fun k =>
    d.2.pages.any (fun p => p.slot == slot && p.recs.any (fun r => r.2.id == k.recId))))
  let s := (shut.flatMap (·.cores)).foldl (fun s k => s.onCore k (fun C => { C with closed := none })) s
  let s : State := { s with dies := s.dies.map (fun d => (d.1,
      { d.2 with pages := d.2.pages.filter (fun p => p.slot != slot), cands := d.2.cands.filter (fun c => c.slot != slot),
                 resumes := d.2.resumes.filter (fun r => r.slot != slot), transit := d.2.transit.filter (fun r => !sent r),
                 closures := d.2.closures.filter (fun k => !shut.contains k) })) }
  (s.dies.map (·.1)).foldl freePages s

/-- The groups of a launch leave their cores: cohorts, commands and operations are dropped (R415). -/
def stopGroups (s : State) (slot : Nat) : State :=
  let gs := (s.groups.filter (fun p => p.2.slot == slot)).map (·.1)
  let cs := (s.cohorts.filter (fun p => gs.contains p.2.grp)).map (·.1)
  let s := (s.cohorts.filter (fun p => cs.contains p.1)).foldl (fun s p =>
    match lookup s.groups p.2.grp with
    | some g => latchDrop (endFutures s g.core ((lookup s.launches g.slot).elim 0 (·.t)) p.1) g.core p.1
    | none => s) s
  { s with
      groups := s.groups.filter (fun p => !gs.contains p.1),
      cohorts := s.cohorts.filter (fun p => !cs.contains p.1),
      cores := s.cores.map (fun p => (p.1, keepOps p.2 (fun m => !cs.contains m.c))),
      dies := s.dies.map (fun d => (d.1, { d.2 with parked := d.2.parked.filter (fun c => !cs.contains c) })),
      tenants := s.tenants.map (fun t => (t.1, { t.2 with halts := t.2.halts.filter (fun h => !gs.contains h.2.grp) })) }

/-! ## The completion record (R232) -/

/-- The bytes of a completion record. -/
def crecBytes (state fail cause end_ slot : Nat) (gen : BitVec 16) (disc bnc redlost wdr blost : Nat) : List Byte :=
  leBytes 1 state ++ leBytes 1 fail ++ leBytes 1 cause ++ leBytes 1 end_ ++ leBytes 2 0 ++ leBytes 1 slot ++ leBytes 1 0 ++
  leBytes 2 gen.toNat ++ leBytes 2 0 ++ leBytes 4 disc ++ leBytes 4 bnc ++ leBytes 4 redlost ++ leBytes 4 wdr ++ leBytes 4 blost

/-- A completion record written; where it cannot be, nothing is (R232). -/
def writeCrec (s : State) (t va : Nat) (b : List Byte) : State :=
  if va == 0 then s else frontPut s t va b

/-- The packet of a launch is done (R228). -/
def packetDone (s : State) (q id : Nat) : State :=
  s.onQueue q (fun Q => { Q with window := Q.window.map (fun p => if p.id == id then { p with state := .done } else p) })

/-- A REDFLUSH of an ended launch is done: the end made its own flush (R90, R234). -/
def flushOver (slot : Nat) (p : WinPkt) : WinPkt :=
  match p.state with
  | .flushing k _ => if k == slot then { p with state := .done } else p
  | _ => p

/-- The launch's slot is freed, its generation rises (R190). -/
def freeLaunch (s : State) (slot : Nat) : State :=
  { s with
           queues := s.queues.map (fun q => (q.1, { q.2 with window := q.2.window.map (flushOver slot) })),
           launches := erase s.launches slot, gens := put 0 s.gens slot (s.gen slot + 1) }

/-- The end of an ending launch is finished (R130, R193, R232, R415). It waits for acknowledgements of other packages. -/
def finishLaunch (s : State) (slot : Nat) : State :=
  match lookup s.launches slot with
  | none => s
  | some l => match l.ending with
    | none => s
    | some (how, code) =>
      let s := drainTenant s l.t slot
      if remoteOutstanding s l.t then s
      else
        let disc := discardCount s slot
        let s := dropSent (dropRecords (stopGroups s slot) slot) slot
        let s := flushAll s l.t slot
        match lookup s.launches slot with
        | none => s
        | some l =>
          let fin := if how == 0 && l.flushErr != 0 then (2, l.flushErr) else (how, code)
          let s := writeCrec s l.t l.crec.toNat (crecBytes 2 0 fin.2 fin.1 slot (s.gen slot) disc (l.bcnt.toNat % 2 ^ 32)
            l.redlost l.wdr l.blost)
          let s := match l.packet with | some p => packetDone s p.1 p.2 | none => s
          freeLaunch s slot

/-! ## Events -/

/-- Whether a launch has run out of work (R193). -/
def outOfWork (s : State) (slot : Nat) : Bool :=
  let gen := s.gen slot
  !s.groups.any (fun p => p.2.slot == slot) &&
  !s.dies.any (fun d => d.2.pages.any (fun p => p.slot == slot && !p.recs.isEmpty) || d.2.resumes.any (fun r => r.slot == slot) ||
    d.2.transit.any (fun r => (r.origin == 0 && r.sslot == slot && r.sgen == gen) || (r.origin == 1 && r.slot == slot && r.gen == gen))) &&
  !s.link.sent.any (fun p => sentBy s slot p.2)

/-- LAUNCH_COMPLETE (R130, R193): a launch that has run out of work begins to end; a launch that is ending, completed or
destroyed, ends. -/
def execLaunchComplete (slot : Nat) (s : State) : Out :=
  .next (match lookup s.launches slot with
    | none => s
    | some l => match l.ending with
      | none => if !l.pers && outOfWork s slot then endLaunch s slot 0 0 else s
      | some (2, _) => s
      | some _ => finishLaunch s slot)

/-- LAUNCH_FAULT_END (R415). -/
def execLaunchFaultEnd (slot : Nat) (s : State) : Out :=
  .next (match (lookup s.launches slot).bind (·.ending) with
    | some (2, _) => finishLaunch s slot
    | _ => s)

/-- The tenant that a virtual function is bound to (R453). -/
def boundTenant (s : State) (fn : Nat) : Option Nat :=
  if fn == 0 then none else (s.tenants.find? (fun p => p.2.vf == fn)).map (·.1)

/-- A write of LDEST through a function (R235). -/
def writeLdest (s : State) (fn : Nat) (v : Dword) : State :=
  let slot := dbits v 37 32
  if dbits v 63 54 != 0 || dbits v 31 0 != 0 then s
  else match launchAt s slot (BitVec.ofNat 16 (dbits v 53 38)) with
    | none => s
    | some l => if fn == 0 || boundTenant s fn == some l.t then endLaunch s slot 1 0 else s

/-- LAUNCH_DESTROY (R235). -/
def execLaunchDestroy (fn : Nat) (v : Dword) (s : State) : Out := .next (writeLdest s fn v)

/-! ## F_DEAD (R206) -/

/-- Whether a cohort is parked on a spawn under R203 or R205. -/
def spawnParked (s : State) (p : Nat × Cohort) : Bool :=
  p.2.park == some .spawn && (p.2.outbox.head?.any (fun r => match destOf s r with | .die _ => true | .pkg _ => false))

/-- Whether a launch is stuck (R206). -/
def isDead (s : State) (slot : Nat) (l : Launch) : Bool :=
  let gs := s.groups.filter (fun p => p.2.slot == slot)
  let cs := s.cohorts.filter (fun p => gs.any (fun g => g.1 == p.2.grp) && !p.2.ended)
  l.ending.isNone && !cs.isEmpty && cs.all (spawnParked s) &&
  (pickFree l.arenaUsed l.oapg).isNone &&
  gs.all (fun g => [g.2.loader, g.2.storer].all (fun r => r.slots.all (fun c => c.2.st != 2))) &&
  s.cohorts.all (fun p => !gs.any (fun g => g.1 == p.2.grp) || p.2.batchesDone) &&
  !s.dies.any (fun d => (choices s d.1).any (fun c => c.home.1 == slot && (placesOf s d.1 c).isSome) ||
    d.2.resumes.any (fun r => r.slot == slot && (resumePlace s d.1 r).isSome))

/-- The launches with the clk since which each has been stuck. -/
def trackDead (s : State) : State :=
  { s with launches := s.launches.map (fun p => (p.1,
      { p.2 with deadSince := if isDead s p.1 p.2 then (match p.2.deadSince with | some c => some c | none => some s.clk) else none })) }

/-- The launches that have been stuck for 65,536 clk end with F_DEAD, as soon as they have (R206, R216). -/
def endDead (s : State) : State :=
  s.launches.foldl (fun s p => match p.2.deadSince with
    | some c => if c + Config.longClk ≤ s.clk then endLaunch s p.1 2 0x11 else s
    | none => s) s

/-- F_DEAD (R206): what ends a stuck launch at its clk. -/
def execFDead (slot : Nat) (s : State) : Out :=
  .next (match lookup s.launches slot with
    | none => s
    | some l => match l.deadSince with
      | some c => if isDead s slot l && decide (c + Config.longClk ≤ s.clk) then endLaunch s slot 2 0x11 else s
      | none => s)

end Sys2Proof.Machine
end

