-- ==== Sys2Proof/Machine/FrontEnd.lean ====
section
/-! DEFINITION. The front end: queues, doorbells, fetching and checking packets, tokens, timelines, and the packets that need
no graph (R217 to R239, R440, R447, R448). -/

namespace Sys2Proof.Machine

/-! ## Packets (R222, R223, R230) -/

/-- One bit of CRC-32C, reflected (R223). -/
def crcBit (c : Word) : Word := if c.getLsbD 0 then (c >>> 1) ^^^ 0x82F63B78 else c >>> 1
/-- One byte of CRC-32C. -/
def crcByte (c : Word) (b : Byte) : Word :=
  crcBit (crcBit (crcBit (crcBit (crcBit (crcBit (crcBit (crcBit (c ^^^ b.setWidth 32))))))))
/-- CRC-32C of a byte string (R223). -/
def crc32c (b : List Byte) : Word := b.foldl crcByte 0xFFFFFFFF ^^^ 0xFFFFFFFF

namespace WinPkt
/-- The number in n bytes from byte i on. -/
def num' (p : WinPkt) (i n : Nat) : Nat := leNat ((p.bytes.drop i).take n)
/-- The packet's TYPE, CONS, WQ, TAG, WMASK and SMASK (R222). -/
def type (p : WinPkt) : Nat := p.num' 0 1
def cons (p : WinPkt) : Bool := bitOf (p.num' 0 8) 41
def wq (p : WinPkt) : Nat := bitsOf (p.num' 0 8) 47 42
def tag (p : WinPkt) : Word := BitVec.ofNat 32 (p.num' 12 4)
def wmask (p : WinPkt) : Dword := BitVec.ofNat 64 (p.num' 16 8)
def smask (p : WinPkt) : Dword := BitVec.ofNat 64 (p.num' 24 8)
end WinPkt

/-- Whether CHK and SEQ of a copy match (R222, R223). -/
def copyGood (b : List Byte) (n : Nat) : Bool :=
  (crc32c (b.take 8 ++ List.replicate 4 0 ++ b.drop 12)).toNat == wordAt b 8 && leNat ((b.drop 6).take 2) == n % 2 ^ 16

/-- The body bytes that the table of R230 gives a field: first byte and length. -/
def bodyFields (type : Nat) : List (Nat × Nat) :=
  match type with
  | 1 => [(32, 8), (40, 8), (48, 2), (50, 2), (56, 8)]
  | 2 => [(32, 8), (40, 8), (48, 4)]
  | 3 => [(32, 8)]
  | 4 => [(32, 8), (40, 1)]
  | 5 => [(32, 4), (40, 8)]
  | 6 => [(32, 1), (33, 1), (34, 2), (36, 1)]
  | 7 => [(32, 2), (40, 8), (48, 8)]
  | 8 => [(32, 2)]
  | 9 => [(32, 1), (34, 2)]
  | _ => []

/-- Whether every field of a packet lies in its range (R230, R448). -/
def fieldsInRange (p : WinPkt) : Bool :=
  let f := p.num'
  match p.type with
  | 1 => f 40 8 % 8 == 0 && decide (16 ≤ f 50 2) && decide (f 50 2 ≤ 264) && f 50 2 % 8 == 0 && f 56 8 % 32 == 0
  | 4 => decide (f 40 1 < 64)
  | 5 => f 40 8 % 8 == 0
  | 6 => decide (f 32 1 < 16) && (decide (f 36 1 < 32) || f 36 1 == 255) &&
         (if f 33 1 == 0 then decide (1 ≤ f 34 2) && decide (f 34 2 ≤ 128) else f 33 1 == 1 && f 34 2 == 0)
  | 7 => f 48 8 % 16 == 0
  | 9 => decide (f 32 1 < 64)
  | _ => true

/-- Whether a packet is one that R225 stops the queue for with CODE 3. -/
def packetBad (p : WinPkt) : Bool :=
  decide (9 < p.type) || bitsOf (p.num' 0 8) 40 8 != 0 || !fieldsInRange p ||
  (List.range 96).any (fun i => p.bytes.getD (32 + i) 0 != 0 &&
    !(bodyFields p.type).any (fun q => decide (q.1 ≤ 32 + i) && decide (32 + i < q.1 + q.2)))

/-! ## Queues (R217 to R221, R225) -/

/-- Queue `wq` of the function that a queue belongs to (R217, R222). -/
def fnQueue (q wq : Nat) : Nat := q / 64 * 64 + wq

namespace Queue
/-- Packets of the ring (R218). -/
def size (Q : Queue) : Nat := 2 ^ (Q.sz + 4)
/-- TOK and TL as they read (R219). -/
def tokens (Q : Queue) : Dword := if Q.en then Q.tok else 0
def timeline (Q : Queue) : Dword := if Q.en then Q.tl else 0
/-- The order of packet numbers below a HEAD: the oldest has the least rank. -/
def rankAt (head : Word) (n : Nat) : Nat := (BitVec.ofNat 32 n - head).toNat
/-- The order of packet numbers below HEAD. -/
def rank (Q : Queue) (n : Nat) : Nat := rankAt Q.head n
/-- The packet to fetch next (R221, R225, R226). -/
def next? (Q : Queue) : Option Nat :=
  if !Q.en || !Q.run || decide (Config.windowSize ≤ Q.window.length) then none
  else match sortBy (fun a b => decide (Q.rank a ≤ Q.rank b)) Q.again with
    | n :: _ => some n
    | [] => if Q.tail == Q.head then none else some Q.head.toNat
end Queue

/-- The front end of a queue is held: its die is being reset (R466). -/
def frontHeld (s : State) (q : Nat) : Bool := s.dies.any (·.2.inReset) && (s.die (Config.queueDie q % 4)).inReset

/-- A queue stops (R225); `id` is the packet's identity in the window, 0 for a packet that is not in it. A packet that has been read is
below HEAD, and is fetched again without raising it; CODE 2 names one that has not. -/
def stopQueue (s : State) (q code cause pkt id : Nat) : State :=
  let s := s.onQueue q (fun (Q : Queue) =>
    { Q with run := false, code := code, cause := if code == 1 || code == 5 then cause else 0, pkt := BitVec.ofNat 32 pkt,
             tries := 0, window := Q.window.filter (fun p => p.id != id),
             head := if code != 2 && pkt == Q.head.toNat && !Q.again.contains pkt then Q.head + 1 else Q.head,
             again := if code == 2 || Q.again.contains pkt then Q.again else pkt :: Q.again })
  signalQueue s q (s.queue q).fvec.toNat

/-- A failed access of a packet stops its queue with CODE 5 (R225). -/
def stopAccess (s : State) (q n id : Nat) (x : XErr) : State :=
  let s := reportAccess s (queueTenant q) x
  stopQueue s q 5 (xerrCode x) n id

/-! ## Timelines (R229) -/

/-- Whether a timeline has met a threshold. -/
def reached (tl thr : Dword) : Bool := decide (0 ≤ (tl - thr).toInt)

/-- The armed interrupt of a queue, when its threshold is met. -/
def timelineIrq (s : State) (q : Nat) : State :=
  let Q := s.queue q
  if Q.arm && reached Q.timeline Q.irqt then signalQueue (s.onQueue q (fun Q => { Q with arm := false })) q Q.vec.toNat else s

/-- A packet completes (R227, R228): its set mask applies and its place is free. -/
def completePacket (s : State) (q : Nat) (p : WinPkt) : State :=
  s.onQueue q (fun Q => { Q with tok := Q.tok ||| p.smask, window := Q.window.filter (fun x => x.id != p.id) })

/-- A WAIT whose threshold is met (R228, R229, R442). -/
def waitMet (s : State) (q : Nat) (p : WinPkt) : Bool :=
  reached (s.queue (fnQueue q (p.num' 40 1))).timeline (BitVec.ofNat 64 (p.num' 32 8))

/-- The queues that have started a packet in this clk (R227). -/
def startedNow (s : State) : List Nat := if s.starts.at_ == s.clk then s.starts.queues else []

/-- Whether a packet can still complete in this clk: completions come before the host's writes of tokens and before the starts
(R227). -/
def completing (s : State) : Bool := (startedNow s).isEmpty && s.starts.host != some s.clk

/-- A packet's state in its window. -/
def setPacket (s : State) (q : Nat) (p : WinPkt) (st : PktState) : State :=
  s.onQueue q (fun Q => { Q with window := Q.window.map (fun x => if x.id == p.id then { x with state := st } else x) })

/-- A WAIT is met, with its trace record; it completes, or does so in a later clk (R227). `by_` is the SIGNAL that met it. -/
def waitDone (s : State) (q : Nat) (p : WinPkt) (since by_ : Nat) : State :=
  let who : TraceWho := { die := Config.queueDie q % 4, core := 0xFFFF, cyc := 0, spc := p.num }
  let s' := traceRecord s (queueTenant q) 6 2 who (by_ * 2 ^ 32 + min (s.clk - since) (2 ^ 32 - 1))
  if completing s then completePacket s' q p else setPacket s' q p .done

/-- The started WAITs of one queue that are met complete. -/
def settleQueue (s : State) (q : Nat) : State :=
  (s.queue q).window.foldl (fun s p => match p.state with
    | .waits at_ => if waitMet s q p then waitDone s q p at_ (s.queue (fnQueue q (p.num' 40 1))).signal.toNat else s
    | _ => s) s

/-- What a change of a queue's timeline brings about (R229). -/
def timelineChanged (s : State) (q : Nat) : State :=
  ((timelineIrq s q).queues.map (·.1)).foldl settleQueue (timelineIrq s q)

/-- A SIGNAL's value applied (R229, R236). -/
def raiseTimeline (s : State) (q n : Nat) (v : Dword) : State :=
  if decide (0 < (v - (s.queue q).tl).toInt) then
    timelineChanged (s.onQueue q (fun Q => { Q with tl := v, signal := BitVec.ofNat 32 n })) q
  else s

/-- A packet completes; a SIGNAL applies its value (R227). -/
def finishPacket (s : State) (q : Nat) (p : WinPkt) : State :=
  let s := completePacket s q p
  if p.type == 3 then raiseTimeline s q p.num (BitVec.ofNat 64 (p.num' 32 8)) else s

/-! ## Register writes of a queue (R218 to R221) -/

/-- Enabled queues of the device (R217). -/
def enabledQueues (s : State) : Nat := (s.queues.filter (·.2.en)).length

/-- QCTL's fields. -/
structure Qctl where
  fvec : BitVec 12
  sz   : Nat
  run  : Bool
  en   : Bool
/-- The fields of a value of QCTL (R218). -/
def qctlOf (v : Dword) : Qctl := ⟨v.extractLsb' 16 12, dbits v 11 8, v.getLsbD 1, v.getLsbD 0⟩

/-- A write of QCTL (R219, R220, R225). -/
def writeQctl (s : State) (q : Nat) (v : Dword) : State :=
  let f := qctlOf v
  let Q := s.queue q
  if Q.en then
    if !f.en then
      timelineChanged (s.setQueue q { Q with fvec := f.fvec, run := f.run, en := false, again := [], tries := 0, signal := 0xFFFFFFFF,
                                             window := Q.window.filter (fun p => p.state != .waiting) }) q
    else if f.run && !Q.run then
      s.setQueue q { Q with fvec := f.fvec, run := true, cause := 0, code := 0, pkt := 0, tries := 0 }
    else s.setQueue q { Q with fvec := f.fvec, run := f.run, tries := if f.run then Q.tries else 0 }
  else if !f.en then s.setQueue q { Q with fvec := f.fvec, sz := f.sz, run := f.run }
  else if decide (12 < f.sz) || decide (Config.maxEnabledQueues ≤ enabledQueues s) then
    s.setQueue q { Q with fvec := f.fvec, sz := f.sz, run := false, code := 4, cause := 0, pkt := 0 }
  else
    timelineChanged (s.setQueue q
      { Q with fvec := f.fvec, sz := f.sz, run := true, en := true, head := 0, tail := 0, tok := 0, tl := 0, cause := 0, code := 0,
               pkt := 0, again := [], tries := 0, signal := 0xFFFFFFFF, late := [] }) q

/-- A doorbell (R220, R221). -/
def writeQtail (s : State) (q : Nat) (v : Dword) : State :=
  let Q := s.queue q
  let t : Word := v.setWidth 32
  if !Q.en then s
  else if decide (Q.size < (t - Q.head).toNat) then stopQueue s q 2 0 Q.head.toNat 0
  else s.setQueue q { Q with tail := t }

/-- A write of QIRQC (R229). -/
def writeQirqc (s : State) (q : Nat) (v : Dword) : State :=
  timelineIrq (s.onQueue q (fun Q => { Q with vec := v.extractLsb' 16 12, arm := v.getLsbD 0 })) q

/-- Whether the host reaches a queue's registers: those of a tenant lie in its bound virtual function (R453). -/
def queueReached (s : State) (q : Nat) : Bool := q < 64 || (s.tenant (queueTenant q)).vf != 0

/-- A host write of a queue's register, through the function that it belongs to; it has no effect where none is bound (R453). -/
def queueWrite (q : Nat) (f : State → State) (s : State) : Out := .next (if queueReached s q then f s else s)

/-- DOORBELL (R221). -/
def execDoorbell (q : Nat) (v : Dword) (s : State) : Out := queueWrite q (fun s => writeQtail s q v) s
/-- QUEUE_ENABLE (R219): a write of QCTL that raises EN. -/
def execQueueEnable (q : Nat) (v : Dword) (s : State) : Out :=
  queueWrite q (fun s => if !(s.queue q).en && (qctlOf v).en then writeQctl s q v else s) s
/-- QUEUE_DISABLE (R219): a write of QCTL that clears EN. -/
def execQueueDisable (q : Nat) (v : Dword) (s : State) : Out :=
  queueWrite q (fun s => if (s.queue q).en && !(qctlOf v).en then writeQctl s q v else s) s
/-- QUEUE_RESTART (R225): a write of QCTL that sets RUN of an enabled queue. -/
def execQueueRestart (q : Nat) (v : Dword) (s : State) : Out :=
  queueWrite q (fun s => if (s.queue q).en && (qctlOf v).en && (qctlOf v).run then writeQctl s q v else s) s
namespace Queue
/-- Tokens that a host write clears or sets. -/
def tokens' (Q : Queue) (set : Bool) (v : Dword) : Dword := if set then Q.tok ||| v else Q.tok &&& ~~~v
/-- The host writes of tokens that were held back apply (R227). -/
def lateWrites (Q : Queue) : Queue := { Q.late.foldl (fun (Q : Queue) w => { Q with tok := Q.tokens' w.1 w.2 }) Q with late := [] }
end Queue

/-- A host write of QTOK, or QTOKS where `set` (R218). It comes before the starts of its clk: once one was made, it belongs to the
next clk (R227). -/
def writeTokens (s : State) (q : Nat) (set : Bool) (v : Dword) : State :=
  if (startedNow s).isEmpty then
    { s.onQueue q (fun Q => { Q with tok := Q.tokens' set v }) with starts := { s.starts with host := some s.clk } }
  else s.onQueue q (fun Q => { Q with late := Q.late ++ [(set, v)] })

/-- QTOK_CLEAR (R218, R227). -/
def execQtokClear (q : Nat) (v : Dword) (s : State) : Out := queueWrite q (fun s => writeTokens s q false v) s
/-- QTOKS_SET (R218, R227). -/
def execQtoksSet (q : Nat) (v : Dword) (s : State) : Out := queueWrite q (fun s => writeTokens s q true v) s
/-- QIRQC_ARM (R229). -/
def execQirqcArm (q : Nat) (v : Dword) (s : State) : Out := queueWrite q (fun s => writeQirqc s q v) s

/-! ## Fetch (R224, R226) -/

/-- A good copy of a packet enters the window, or stops the queue (R225). -/
def takePacket (s : State) (q n : Nat) (b : List Byte) : State :=
  let (id, s1) := freshId s
  let p : WinPkt := { id := id, num := n, bytes := b }
  if packetBad p then stopQueue s q 3 0 n 0
  else s1.onQueue q (fun Q =>
    let head := if Q.again.contains n then Q.head else Q.head + 1
    { Q with window := sortBy (fun a b => decide (Queue.rankAt head a.num ≤ Queue.rankAt head b.num)) (Q.window ++ [p]), tries := 0,
             head := head, again := Q.again.filter (· != n) })

/-- One read of the next packet (R224). -/
def readPacket (s : State) (q : Nat) : State :=
  let Q := s.queue q
  match Q.next? with
  | none => s
  | some n =>
    let va := Q.qbase.toNat + 128 * (n % Q.size)
    if frontWaits s (queueTenant q) va 128 .read then s
    else
    let r := frontRead s (queueTenant q) va 128
    let s := frontAsk s (queueTenant q) va 128
    match r with
    | .error x => stopAccess s q n 0 x
    | .ok b =>
      if copyGood b n then takePacket s q n b
      else if 4 ≤ Q.tries then stopQueue s q 1 0x18 n 0
      else s.setQueue q { Q with tries := Q.tries + 1, triedAt := s.clk }

/-- PACKET_FETCH (R224). -/
def execPacketFetch (q : Nat) (s : State) : Out :=
  .next (if frontHeld s q || (s.queue q).tries != 0 then s else readPacket s q)

/-- PACKET_REFETCH (R224). -/
def execPacketRefetch (q : Nat) (s : State) : Out :=
  .next (if frontHeld s q || (s.queue q).tries == 0 || decide (s.clk < (s.queue q).triedAt + 64) then s else readPacket s q)

/-! ## Starts (R226, R227) -/

/-- Whether a packet is ready (R226). -/
def packetReady (s : State) (q : Nat) (p : WinPkt) : Bool :=
  p.state == .waiting && (p.wmask &&& ~~~(s.queue (fnQueue q p.wq)).tokens) == 0

/-- Whether an access that a packet makes as it starts must wait (R466). -/
def packetHeld (s : State) (q : Nat) (p : WinPkt) : Bool :=
  let t := queueTenant q
  anyWait s && match p.type with
    | 1 => p.num' 56 8 != 0 && frontWaits s t (p.num' 56 8) 32 .write
    | 2 => frontWaits s t (p.num' 32 8) (p.num' 48 4 + 1) .read || frontWaits s t (p.num' 40 8) (p.num' 48 4 + 1) .write
    | 5 => p.num' 40 8 != 0 && frontWaits s t (p.num' 40 8) 8 .write
    | 7 => frontWaits s t (p.num' 40 8) 16 .read
    | 8 => (s.tenant t).caps.any (fun c => c.cid == p.num' 32 2 && frontWaits s t c.out.toNat 80 .write)
    | _ => false

/-- Whether a queue may start a packet in this clk (R225 to R227). Packets in the window of a queue that has stopped run on; a
queue whose RUN the host cleared starts none. -/
def mayStart (s : State) (q : Nat) : Bool :=
  let Q := s.queue q
  Q.en && (Q.run || Q.code != 0) && !frontHeld s q && !(startedNow s).contains q &&
  (Q.window.find? (packetReady s q)).any (fun p => !packetHeld s q p)

/-- How many queues lie between the queue that started last and a queue, in round robin by device queue number (R227). -/
def queueTurn (s : State) (q : Nat) : Nat := (q + 2111 - s.starts.last) % 2112

/-- Whether the next start of this clk is this queue's (R227). -/
def startTurn (s : State) (q : Nat) : Bool :=
  mayStart s q && decide ((startedNow s).length < 4) &&
  s.queues.all (fun x => x.1 == q || !mayStart s x.1 || decide (queueTurn s q < queueTurn s x.1))

/-- The packet that a queue starts next is packet n of a type: the packet, and the state in which it has started (R227). Tokens
that its start clears stay cleared if it then stops its queue, and it waits on them again when it is fetched again: the spec is
silent (DESIGN CHOICE, assumption 35). -/
def starting (s : State) (q n type : Nat) : Option (State × WinPkt) :=
  let Q := s.queue q
  if !startTurn s q then none
  else match Q.window.find? (packetReady s q) with
    | none => none
    | some p =>
      if p.num != n || p.type != type then none
      else
        let s := if p.cons then s.onQueue (fnQueue q p.wq) (fun Q => { Q with tok := Q.tok &&& ~~~p.wmask }) else s
        let p := { p with state := .started }
        let s := { s with starts := { at_ := s.clk, queues := startedNow s ++ [q], last := q } }
        some (s.onQueue q (fun Q => { Q with window := Q.window.map (fun x => if x.id == p.id then p else x) }), p)

/-- NOP (R228): it is done as it starts, and completes before the starts of a later clk (R227). -/
def execNopPacket (q n : Nat) (s : State) : Out :=
  .next (match starting s q n 0 with | none => s | some (s, p) => setPacket s q p .done)

/-- SIGNAL (R228, R229): its value is applied as it completes (R227). -/
def execSignal (q n : Nat) (s : State) : Out :=
  .next (match starting s q n 3 with | none => s | some (s, p) => setPacket s q p .done)

/-- WAIT (R228, R229). -/
def execWait (q n : Nat) (s : State) : Out :=
  .next (match starting s q n 4 with
    | none => s
    | some (s, p) => if waitMet s q p then waitDone s q p s.clk 0xFFFFFFFF else setPacket s q p (.waits s.clk))

/-- COPY (R225, R233). -/
def execCopy (q n : Nat) (s : State) : Out :=
  .next (match starting s q n 2 with
    | none => s
    | some (s, p) =>
      let t := queueTenant q
      let len := p.num' 48 4 + 1
      let r := frontRead s t (p.num' 32 8) len
      let s := frontAsk s t (p.num' 32 8) len
      match r with
      | .error x => stopAccess s q n p.id x
      | .ok b => match frontWrite s t (p.num' 40 8) b true with
        | .error x => stopAccess (frontWalks s t (p.num' 40 8) len) q n p.id x
        | .ok s => setPacket s q p .done)

/-! ## Withdrawal (R236) -/

/-- Whether a record is withdrawn: it has the tag, belongs to a launch of the tenant, and is not part of a formed cohort. -/
def recWithdrawn (s : State) (t : Nat) (w : Word) (r : Rec) : Bool :=
  r.tag == w && r.cand == 0 && (lookup s.launches r.slot).any (fun l => l.t == t)

/-- The records of one die withdrawn; a closure for such a record ends. -/
def withdrawDie (t : Nat) (w : Word) (s : State) (die : Nat) : State :=
  let gone := ((s.die die).pages.flatMap (fun p => p.recs.map (·.2))).filter (recWithdrawn s t w)
  let ids := gone.map (·.id)
  let shut := (s.die die).closures.filter (fun k => ids.contains k.recId)
  let s := gone.foldl (fun s r => s.onLaunch r.slot (fun l => { l with wdr := l.wdr + 1 })) s
  let s := (shut.flatMap (·.cores)).foldl (fun s k => s.onCore k (fun C => { C with closed := none })) s
  dropRecs (s.onDie die (fun D => { D with closures := D.closures.filter (fun k => !shut.contains k) })) die
    (fun r => ids.contains r.id)

/-- Records that a withdrawal removes. -/
def recsWithdrawn (s : State) (t : Nat) (w : Word) : Nat :=
  ((s.dies.map (fun d => ((d.2.pages.flatMap (fun p => p.recs.map (·.2))).filter (recWithdrawn s t w)).length))).foldl (· + ·) 0

/-- The packets that a withdrawal completes: queue and packet. -/
def pktsWithdrawn (s : State) (t : Nat) (w : Word) : List (Nat × WinPkt) :=
  (s.queues.filter (fun q => queueTenant q.1 == t)).flatMap (fun q =>
    (q.2.window.filter (fun p => p.state == .waiting && p.tag == w)).map (fun p => (q.1, p)))

/-- WITHDRAW (R225, R236). -/
def execWithdraw (q n : Nat) (s : State) : Out :=
  .next (match starting s q n 5 with
    | none => s
    | some (s, p) =>
      let t := queueTenant q
      let w := BitVec.ofNat 32 (p.num' 32 4)
      let cnta := p.num' 40 8
      let ps := pktsWithdrawn s t w
      let out := leBytes 4 ps.length ++ leBytes 4 (recsWithdrawn s t w)
      match (if cnta == 0 then .ok s else frontWrite s t cnta out) with
      | .error x => stopAccess (frontWalks s t cnta 8) q n p.id x
      | .ok s =>
        let s := ps.foldl (fun s x => finishPacket s x.1 x.2) s
        setPacket ((s.dies.map (·.1)).foldl (withdrawDie t w) s) q p .done)

/-! ## VACATE (R238) -/

/-- The cores that a VACATE takes on a die. -/
def vacateCores (s : State) (die ncore : Nat) : List Nat :=
  let free := ((List.range 128).map (die * 128 + ·)).filter (fun k => (s.core k).vacated.isNone)
  ((sortBy (fun a b => decide (a.1 ≤ b.1)) (free.map (fun k => ((cohortsOn s k).length, k)))).map (·.2)).take ncore

/-- The groups on cores that do not belong to a tenant; 255 is no tenant. -/
def foreignGroups (s : State) (cores : List Nat) (own : Nat) : List Nat :=
  (s.groups.filter (fun p => cores.contains p.2.core && !(lookup s.launches p.2.slot).any (fun l => l.t == own))).map (·.1)

/-- VACATE, MODE 0 (R217, R238). -/
def execVacate (q n : Nat) (s : State) : Out :=
  .next (match starting s q n 6 with
    | none => s
    | some (s', p) =>
      if 64 ≤ q then stopQueue s' q 6 0 n p.id
      else if p.num' 33 1 != 0 then s
      else
        let own := p.num' 36 1
        let cores := ((List.range 4).filter (bitOf (p.num' 32 1))).flatMap (fun d => vacateCores s' d (p.num' 34 2))
        let s := cores.foldl (fun s k => s.onCore k (fun C => { C with vacated := some own })) s'
        let s := (foreignGroups s cores own).foldl requestSave s
        setPacket s q p (.vacating cores))

/-- VACATE, MODE 1 (R238): every held core of the named dies is returned. -/
def execVacateReturn (q n : Nat) (s : State) : Out :=
  .next (match starting s q n 6 with
    | none => s
    | some (s', p) =>
      if 64 ≤ q then stopQueue s' q 6 0 n p.id
      else if p.num' 33 1 != 1 then s
      else
        let s := { s' with cores := s'.cores.map (fun c =>
          if bitOf (p.num' 32 1) (c.1 / 128) then (c.1, { c.2 with vacated := none }) else c) }
        setPacket s q p .done)

/-! ## Captures and flushes (R234, R447, R448) -/

/-- The event codes of a capture. -/
def selCodes (b : List Byte) : List Nat := (List.range 8).map (fun i => leNat ((b.drop (2 * i)).take 2))

/-- CAPSTART (R447). -/
def execCapstart (q n : Nat) (s : State) : Out :=
  .next (match starting s q n 7 with
    | none => s
    | some (s, p) =>
      let t := queueTenant q
      let r := frontRead s t (p.num' 40 8) 16
      let s := frontAsk s t (p.num' 40 8) 16
      match r with
      | .error x => stopAccess s q n p.id x
      | .ok b =>
        let sel := selCodes b
        let caps := (s.tenant t).caps
        if sel.any (fun c => decide (16 ≤ c)) then stopQueue s q 3 0 n p.id
        else if decide (4 ≤ caps.length) || caps.any (fun c => c.cid == p.num' 32 2) then setPacket s q p .done
        else
          let c : Capture := { cid := p.num' 32 2, sel := sel, out := BitVec.ofNat 64 (p.num' 48 8), at_ := s.clk,
                               counts := List.replicate 8 0 }
          setPacket (s.onTenant t (fun T => { T with caps := T.caps ++ [c] })) q p .done)

/-- The bytes of a capture (R448). -/
def captureBytes (c : Capture) (clk : Nat) : List Byte :=
  leBytes 2 c.cid ++ leBytes 1 (if c.int then 1 else 0) ++ leBytes 5 0 ++ leBytes 8 (clk - c.at_) ++
  (List.range 8).flatMap (fun i => leBytes 8 (c.counts.getD i 0))

/-- CAPSTOP (R447, R448). -/
def execCapstop (q n : Nat) (s : State) : Out :=
  .next (match starting s q n 8 with
    | none => s
    | some (s, p) =>
      let t := queueTenant q
      match (s.tenant t).caps.find? (fun c => c.cid == p.num' 32 2) with
      | none => setPacket s q p .done
      | some c => match frontWrite s t c.out.toNat (captureBytes c s.clk) with
        | .error x => stopAccess (frontWalks s t c.out.toNat 80) q n p.id x
        | .ok s => setPacket (s.onTenant t (fun T => { T with caps := T.caps.filter (fun d => d.cid != c.cid) })) q p .done)

/-- The slices that hold entries of a launch, in their stores or in the tenant's overflow area (R87, R88). -/
def slicesHolding (s : State) (t slot : Nat) : List Nat :=
  dedup ((s.slices.filter (fun p => p.2.redo.any (fun e => e.slot == slot))).map (·.1) ++ areaHomes s (s.tenant t))

/-- REDFLUSH (R90, R234). -/
def execRedflush (q n : Nat) (s : State) : Out :=
  .next (match starting s q n 9 with
    | none => s
    | some (s, p) =>
      let slot := p.num' 32 1
      match launchAt s slot (BitVec.ofNat 16 (p.num' 34 2)) with
      | none => setPacket s q p .done
      | some l =>
        if l.t != queueTenant q || l.ending.isSome then setPacket s q p .done
        else setPacket s q p (.flushing slot (slicesHolding s l.t slot)))

/-! ## Completion (R228) -/

/-- Whether a started packet's effect is done. -/
def packetEnds (s : State) (q : Nat) (p : WinPkt) : Bool :=
  match p.state with
  | .done => true
  | .waits _ => waitMet s q p
  | .vacating cores => (foreignGroups s cores (p.num' 36 1)).isEmpty
  | .flushing _ ss => ss.isEmpty
  | _ => false

/-- PACKET_COMPLETE (R89, R227, R228): a packet whose effect is done completes, before the host's writes of tokens and the starts of
its clk. -/
def execPacketComplete (q n : Nat) (s : State) : Out :=
  .next (if !completing s then s else match (s.queue q).window.find? (fun p => p.num == n && packetEnds s q p) with
    | none => s
    | some p => match p.state with
      | .waits at_ => waitDone s q p at_ (s.queue (fnQueue q (p.num' 40 1))).signal.toNat
      | .flushing slot _ =>
        let s := match lookup s.launches slot with
          | some l => if l.ending.isNone && l.flushErr != 0 then endLaunch s slot 2 l.flushErr else s
          | none => s
        completePacket s q p
      | _ => finishPacket s q p)

end Sys2Proof.Machine
end

