-- ==== Sys2Proof/Machine/Graph.lean ====
section
/-! DEFINITION. GRAPH packets: reading and checking a graph, and creating its launch (R190 to R197, R212, R225, R231, R232). -/

namespace Sys2Proof.Machine

/-! ## Reading (R190) -/

/-- n bytes at a virtual address; none bytes need no read. -/
def graphRead (s : State) (t va n : Nat) : Except XErr (List Byte) := if n == 0 then .ok [] else frontRead s t va n

/-- A node as its descriptor reads. -/
def nodeHead (b : List Byte) : NodeCopy := ⟨BitVec.ofNat 1024 (leNat b), [], [], [], 0⟩

/-- A node with its out-edge table and its sections (R190, R194). -/
def readNode (s : State) (t va : Nat) : Except XErr NodeCopy :=
  match frontRead s t va 128 with
  | .error x => .error x
  | .ok b =>
    let n := nodeHead b
    match graphRead s t n.edgesVa (2 * n.ecnt), graphRead s t n.ldsec n.ldsz, graphRead s t n.stsec n.stsz with
    | .ok e, .ok ld, .ok st =>
      .ok { n with edges := (List.range n.ecnt).map (fun i => BitVec.ofNat 16 (leNat ((e.drop (2 * i)).take 2))), loader := ld, storer := st }
    | .error x, _, _ => .error x
    | _, .error x, _ => .error x
    | _, _, .error x => .error x

/-- The nodes of a graph, k of them from a table address on. -/
def readNodes (s : State) (t : Nat) : Nat → Nat → Except XErr (List NodeCopy)
  | 0, _ => .ok []
  | k + 1, va => match readNode s t va with
    | .error x => .error x
    | .ok n => (readNodes s t k (va + 128)).map (n :: ·)

/-- What reading a node reads: addresses and lengths. -/
def nodeSpans (s : State) (t va : Nat) : List (Nat × Nat) :=
  (va, 128) :: (match frontRead s t va 128 with
    | .error _ => []
    | .ok b => let n := nodeHead b
      [(n.edgesVa, 2 * n.ecnt), (n.ldsec, n.ldsz), (n.stsec, n.stsz)])

/-- What reading k nodes reads, up to one that cannot be read. -/
def nodesSpans (s : State) (t : Nat) : Nat → Nat → List (Nat × Nat)
  | 0, _ => []
  | k + 1, va => nodeSpans s t va ++ (match readNode s t va with | .error _ => [] | .ok _ => nodesSpans s t k (va + 128))

/-- What reading the entries of a GRAPH packet reads (R231). -/
def entrySpans (s : State) (t elist estr k : Nat) : List (Nat × Nat) :=
  (List.range k).flatMap (fun i => (elist + i * estr, 8) :: (match frontRead s t (elist + i * estr) 8 with
    | .error _ => []
    | .ok h => let size := leNat ((h.drop 2).take 2)
      if leNat (h.drop 4) != 0 || decide (estr < 8 + size) then [] else [(elist + i * estr + 8, size)]))

/-- What a GRAPH packet reads (R190, R231): addresses and lengths. -/
def graphSpans (s : State) (t : Nat) (p : WinPkt) : List (Nat × Nat) :=
  ((p.num' 32 8, 64) :: (match frontRead s t (p.num' 32 8) 64 with
    | .error _ => []
    | .ok b =>
      let l : Launch := { t := t, desc := BitVec.ofNat 512 (leNat b), nodes := [] }
      nodesSpans s t l.nnode (dbits l.desc 63 0) ++
        (match readNodes s t l.nnode (dbits l.desc 63 0) with
         | .error _ => []
         | .ok _ => entrySpans s t (p.num' 40 8) (p.num' 50 2) (p.num' 48 2)))).filter (fun a => a.2 != 0)

/-! ## The checks (R192) -/

/-- Whether a node sets a reserved field: code 2. -/
def NodeCopy.reservedSet (n : NodeCopy) : Bool :=
  dbits n.desc 1023 810 != 0 || dbits n.desc 767 760 != 0 || n.desc.getLsbD 703 || n.desc.getLsbD 639 ||
  n.edges.any (fun e => bitsOf e.toNat 13 12 != 0)

/-- Whether the fields that only some kinds use are right (R194). -/
def NodeCopy.kindFields (n : NodeCopy) : Bool :=
  let gf := dbits n.desc 747 745
  let gp := dbits n.desc 744 742
  let gmax := dbits n.desc 713 704
  match n.kind with
  | 0 => gf == 0 && gp == 0 && gmax == 0 && n.rwo == 0 && n.gwait == 0 && !n.rl1 && n.nc0 == 1
  | 1 => gf == 0 && gp == 0 && n.gwait == 0
  | 2 => gmax == 0 && decide (1 ≤ gf) && decide (gf ≤ gp)
  | _ => false

/-- Whether every field of a node is in range: code 3 (R146, R174, R194, R197, R280). -/
def NodeCopy.inRange (n : NodeCopy) : Bool :=
  let ws := (List.range 6).map n.w
  let sels := fun sel : Nat => (List.range 6).all (fun k => !bitOf sel k || n.w k != 0)
  n.kindFields && ws.all (fun w => decide (w ≤ 64)) && decide (ws.foldl (· + ·) 0 ≤ 64) && sels n.dsel && sels n.hsel &&
  decide (n.ecnt ≤ 32) && n.sgap != 0 && decide (n.cbsz ≤ 262144) && decide (n.absz ≤ 262144) && decide (n.wbsz ≤ 786432) &&
  decide (n.spsz ≤ 262144) && decide (n.stsz ≤ 32768) && n.stsz % 4 == 0 && decide (n.ldsz ≤ 32768) && n.ldsz % 4 == 0 &&
  decide (n.hwm ≤ n.cap) && n.ep0 % 4 == 0 && n.ep1 % 4 == 0 &&
  [n.stsec, n.ldsec, n.edgesVa, n.spt, n.const, n.lbase].all (fun a => a % 64 == 0) &&
  (if n.rl1 then bitsOf n.ep0 59 32 == bitsOf n.ep1 59 32
   else n.ep1 == 0 && dbits n.desc 690 686 == 0 && dbits n.desc 680 676 == 0)

/-- Whether the graph descriptor is in range: code 3 (R191). -/
def Launch.inRange (l : Launch) (gdesc : Nat) : Bool :=
  gdesc % 64 == 0 && decide (l.plane ≤ 16384) && l.plane % 4 == 0 && decide (l.bqn ≤ 16) && l.bq % 64 == 0 &&
  l.parena % 65536 == 0 && dbits l.desc 63 0 % 128 == 0

/-- Whether a node's group fits an empty core: code 4 (R43, R175, R195). -/
def NodeCopy.fits (n : NodeCopy) : Bool :=
  (assignSlots (n.roles.map (·.2)) ⟨[], 0⟩ ⟨[], 0⟩).isSome &&
  (match n.kind with
   | 0 => decide (n.rsize ≤ 4 * n.nv0)
   | 1 => decide (n.rwo * 64 + n.gmax * n.rsize ≤ n.spsz)
   | _ => decide (n.rwo * 64 + n.rsize ≤ n.spsz))

/-- Whether the out-edges of node i are valid on their own: code 5 (R196). -/
def edgesGood (nnode i : Nat) (es : List (BitVec 16)) : Bool :=
  (dedup es).length == es.length &&
  es.all (fun e => if e.getLsbD 15 then e.toNat == 0x8000 else decide (e.toNat % 4096 < nnode) && e.toNat % 4096 != i)

/-- The forward edges of a graph (R196). -/
def forwardEdges (ns : List NodeCopy) : List (Nat × Nat) :=
  (List.range ns.length).flatMap (fun i => ((ns.getD i ⟨0, [], [], [], 0⟩).edges.filter (fun e => !e.getLsbD 15 && !e.getLsbD 14)).map
    (fun e => (i, e.toNat % 4096)))

/-- The nodes left after nodes without a forward edge from a left node are taken out k times. -/
def peel (es : List (Nat × Nat)) : Nat → List Nat → List Nat
  | 0, left => left
  | k + 1, left => peel es k (left.filter (fun n => es.any (fun e => e.2 == n && left.contains e.1)))

/-- The longest forward paths from ENT nodes, after k rounds (R196). -/
def levelsAfter (ns : List NodeCopy) (es : List (Nat × Nat)) : Nat → List (Option Nat)
  | 0 => ns.map (fun n => if n.ent then some 0 else none)
  | k + 1 =>
    let prev := levelsAfter ns es k
    (List.range ns.length).map (fun j => es.foldl (fun best e =>
      if e.2 != j then best
      else match prev.getD e.1 none with
        | none => best
        | some d => some (max (best.getD 0) (d + 1))) (prev.getD j none))

/-- Whether a physical range touches what R17 reserves. -/
def touchesReserved (a n : Nat) : Bool :=
  let hits := fun lo hi : Nat => decide (a < hi) && decide (lo < a + n)
  hits (2 ^ 40) (2 ^ 50) || hits (2 * 2 ^ 50 + 1023 * 2 ^ 40) (2 ^ 52)

/-- The entries of a GRAPH packet (R231): node index and payload; for one that fails its check, the failed read where there is one. -/
def readEntries (s : State) (t elist estr : Nat) : Nat → List (Except (Option XErr) (Nat × List Byte))
  | 0 => []
  | k + 1 => readEntries s t elist estr k ++
    [match frontRead s t (elist + k * estr) 8 with
     | .error x => .error (some x)
     | .ok h =>
       let size := leNat ((h.drop 2).take 2)
       if leNat (h.drop 4) != 0 || decide (estr < 8 + size) then .error none
       else match graphRead s t (elist + k * estr + 8) size with
         | .error x => .error (some x)
         | .ok b => .ok (leNat (h.take 2), b)]

/-- The first failed read of the entries. -/
def entryRead (es : List (Except (Option XErr) (Nat × List Byte))) : Option XErr :=
  es.findSome? (fun e => match e with | .error x => x | .ok _ => none)

/-- Whether an entry suits the graph: code 7. -/
def entryGood (ns : List NodeCopy) (e : Except (Option XErr) (Nat × List Byte)) : Bool :=
  match e with
  | .error _ => false
  | .ok (k, b) => match ns[k]? with
    | none => false
    | some n => n.ent && n.rsize == b.length

/-- Why a graph was not created: the failure code, and the failed read of code 1 (R192). -/
structure NoGraph where
  code : Nat
  read : Option XErr := none

/-- The creation checks in table order (R192): a failure code, or the launch and its entries. -/
def checkGraph (s : State) (t : Nat) (p : WinPkt) : Except NoGraph (Launch × List (Nat × List Byte)) :=
  let gdesc := p.num' 32 8
  match frontRead s t gdesc 64 with
  | .error x => .error ⟨1, some x⟩
  | .ok b =>
    let l : Launch := { t := t, desc := BitVec.ofNat 512 (leNat b), nodes := [] }
    match readNodes s t l.nnode (dbits l.desc 63 0) with
    | .error x => .error ⟨1, some x⟩
    | .ok ns =>
      let es := forwardEdges ns
      let entries := readEntries s t (p.num' 40 8) (p.num' 50 2) (p.num' 48 2)
      if dbits l.desc 511 335 != 0 || dbits l.desc 255 232 != 0 || ns.any (·.reservedSet) then .error { code := 2 }
      else if !l.inRange gdesc || !ns.all (·.inRange) || (ns.any (·.remote) && l.bq == 0) then .error { code := 3 }
      else if !ns.all (·.fits) then .error { code := 4 }
      else if !(List.range ns.length).all (fun i => edgesGood ns.length i (ns.getD i ⟨0, [], [], [], 0⟩).edges) ||
          !(peel es ns.length (List.range ns.length)).isEmpty then .error { code := 5 }
      else if l.oapg != 0 && (!inWritableWindow (s.tenant t) l.oabase (4096 * l.oapg) || touchesReserved l.oabase (4096 * l.oapg)) then .error { code := 6 }
      else if !entries.all (entryGood ns) then .error ⟨7, entryRead entries⟩
      else
        let lv := levelsAfter ns es ns.length
        .ok ({ l with nodes := (List.range ns.length).map (fun i =>
                        { ns.getD i ⟨0, [], [], [], 0⟩ with level := (lv.getD i none).getD 0 }) },
             entries.filterMap (·.toOption))

/-! ## Creation (R190, R231, R232) -/

/-- A tenant's code lines leave every core (R63). -/
def dropCode (s : State) (t : Nat) (covers : Nat → Bool) : State :=
  { s with cores := s.cores.map (fun c => (c.1,
      { c.2 with sic := c.2.sic.filter (fun l => !(l.t == t && covers l.va)), lic := c.2.lic.filter (fun l => !(l.t == t && covers l.va)) })) }

/-- An entry record goes to its die (R200, R202, R231). -/
def sendEntry (slot : Nat) (l : Launch) (s : State) (e : Nat × List Byte) : State :=
  let (id, s) := freshId s
  let r : Rec := { id := id, spkg := s.link.pkgid, sslot := slot, sgen := s.gen slot, slot := slot, gen := s.gen slot, node := e.1,
                   scope := 5, tag := l.tag, payload := e.2, origin := 1 }
  s.onDie (sliceDie (recSlice (l.node e.1) r)) (fun D => { D with transit := D.transit ++ [r] })

/-- Bytes written over physical pieces, where all can be reached. -/
def writePieces (s : State) (t : Nat) (ps : List (Nat × Nat)) (b : List Byte) : State :=
  if ps.any (fun p => cutOff s p.1) then s else (byLine (layOver ps b)).foldl (fun s cs => targetWrite s noCore t cs false) s

/-- GRAPH (R190, R225, R232): the packet starts; the page of its completion record is translated, for the record's first write. -/
def execGraph (q n : Nat) (s : State) : Out :=
  .next (match starting s q n 1 with
    | none => s
    | some (s, p) =>
      let crec := p.num' 56 8
      let r := if crec == 0 then .ok [] else xlatRange s (queueTenant q) crec 32 .write
      let s := if crec == 0 then s else frontWalks s (queueTenant q) crec 32
      match r with
      | .error x => stopAccess s q n p.id x
      | .ok ps => match ps.find? (fun x => cutOff s x.1) with
        | some x => stopAccess s q n p.id (.data x.1)
        | none => s.onQueue q (fun Q => { Q with window := Q.window.map (fun x => if x.id == p.id then { x with crecAt := ps } else x) }))

/-- Where the completion record of a started GRAPH goes: as it was translated at the start, or, once an invalidation has covered it, as
it translates now (R38). -/
def crecPieces (s : State) (t : Nat) (p : WinPkt) : Except XErr (List (Nat × Nat)) :=
  if p.num' 56 8 == 0 || !p.crecAt.isEmpty then .ok p.crecAt else xlatRange s t (p.num' 56 8) 32 .write

/-- GRAPH_CREATE (R36, R190 to R192, R231, R232): once a slot is free, a started GRAPH creates its launch, or completes with a
failure code. -/
def execGraphCreate (q n : Nat) (s : State) : Out :=
  .next (match (s.queue q).window.find? (fun p => p.num == n && p.type == 1 && p.state == .started) with
    | none => s
    | some p =>
      let t := queueTenant q
      match firstFree (s.launches.map (·.1)) Config.launchSlots with
      | none => s
      | some slot =>
        let spans := graphSpans s t p
        if !(s.tenant t).txctl.getLsbD 0 || frontHeld s q || spans.any (fun a => frontWaits s t a.1 a.2 .read) then s
        else match crecPieces s t p with
        | .error x => stopAccess (frontWalks s t (p.num' 56 8) 32) q n p.id x
        | .ok crecAt =>
          let r := checkGraph s t p
          let s := spans.foldl (fun s a => frontAsk s t a.1 a.2) s
          match r with
          | .error f =>
            let s := match f.read with | some x => reportAccess s t x | none => s
            setPacket (writeCrec s t (p.num' 56 8) (crecBytes 2 f.code 0 3 0 0 0 0 0 0 0)) q p .done
          | .ok (l, entries) =>
            let l := { l with packet := some (q, p.id), crec := BitVec.ofNat 64 (p.num' 56 8), tag := p.tag }
            let s := s.setLaunch slot l
            let s := writePieces (dropCode s t (fun _ => true)) t crecAt (crecBytes 1 0 0 0 slot (s.gen slot) 0 0 0 0 0)
            setPacket (entries.foldl (sendEntry slot l) s) q p (.launched slot))

end Sys2Proof.Machine
end

