-- ==== Sys2Proof/Machine/Translation.lean ====
section
/-! DEFINITION. Walks, the fault ring and its answers, TXCTL, and invalidation (R20, R24 to R38, R84, R88, R452). -/

namespace Sys2Proof.Machine

/-! ## Walks (R20, R34, R35) -/

/-- A table kept to its newest n entries. -/
def newest {α : Type} (n : Nat) (l : List α) : List α := l.drop (l.length - n)

/-- A translation put into a core's buffer. -/
def fillCore (s : State) (core : Nat) (e : TlbEntry) : State :=
  s.onCore core (fun C => { C with tlb := newest Config.tlbEntries (C.tlb ++ [e]) })

/-- PAGE_WALK (R20, R34): a miss of a core's buffer is filled from the die's cache or by a walk. A failed translation is not
cached (R33); the access that needs it finds the fault again. -/
def execPageWalk (core t : Nat) (va : Dword) (kind : AccessKind) (s : State) : Out :=
  let a := va.toNat
  .next (if decide (2 ^ 60 ≤ a) || (s.core core).tlb.any (fun e => e.hits t a) then s
    else
      match (s.die (core / 128)).leaf.find? (fun e => e.hits t a) with
      | some e => fillCore s core e
      | none => match walk s (core / 128) t a kind with
        | .error _ => s
        | .ok (e, ts) =>
          (fillCore s core e).onDie (core / 128) (fun D =>
            { D with leaf := newest Config.dieLeafEntries (D.leaf ++ [e]), tables := newest Config.dieNonLeafEntries (D.tables ++ ts.filter (fun x => !D.tables.contains x)) }))

/-! ## The fault ring (R25, R31) -/

/-- Entries of a tenant's fault ring (R25). -/
def frSize (T : Tenant) : Nat := 2 ^ (bitsOf T.txctl.toNat 23 20 + 4)
/-- The base of the ring. -/
def frBase (T : Tenant) : Nat := bitsOf T.txfrb.toNat 51 5 * 32

/-- The bytes of an entry (R31). -/
def faultBytes (e : FaultEntry) (seq : Word) : List Byte :=
  leBytes 8 (e.va / 65536 * 65536) ++ leBytes 4 seq.toNat ++ leBytes 1 e.kind ++ leBytes 1 e.agent ++ leBytes 2 (e.core % 512) ++
  leBytes 1 e.lvl ++ leBytes 1 e.reason ++ leBytes 14 0

/-- FAULT_RING_POST (R25, R31): the k-th entry of a tenant that has not been posted is posted, unless the ring is full or does
not lie in one window with WR. A ring at a reserved address, or in a package that cannot be reached, takes no entry either: the
model's choice (assumption 57). -/
def execFaultRingPost (t k : Nat) (s : State) : Out :=
  let T := s.tenant t
  let size := frSize T
  .next (match (T.faults.filter (fun e => e.seq.isNone))[k]? with
    | none => s
    | some e =>
      if !inWritableWindow T (frBase T) (32 * size) || (T.txfrh + 1) % size == T.txfrt % size || cutOff s (frBase T) then s
      else
        let cells := cellsOf (canonPa s (frBase T) + 32 * (T.txfrh % size)) (faultBytes e T.fseq)
        let s := targetWrite s noCore t cells false
        let s := s.onTenant t (fun T => { T with
          txfrh := (T.txfrh + 1) % size, fseq := T.fseq + 1,
          faults := T.faults.map (fun x => if x.id == e.id then { x with seq := some T.fseq } else x) })
        signalTenant s t (bitsOf (s.tenant t).txctl.toNat 19 8))

/-! ## Answers (R32) -/

/-- An entry is no longer outstanding. -/
def closeEntry (s : State) (t id : Nat) : State := s.onTenant t (fun T => { T with faults := T.faults.filter (fun e => e.id != id) })

/-- A cohort whose page has been rejected traps with F_PAGE; in a halted group it does so when the group is released (R445). -/
def rejectCohort (s : State) (c : Nat) : State :=
  match ctxOf s c with
  | none => s
  | some x =>
    let f := x.co.fault.getD { code := 6, xpc := x.co.spc }
    if x.g.halt.isSome then s.onCohort c (fun co => { co with park := none, fault := some f, halted := true })
    else trapEntry s x f

/-- The cohorts that wait on an entry. -/
def waitingCohorts (s : State) (id : Nat) : List Nat :=
  (s.cohorts.filter (fun p => match p.2.park with | some (.page ids) => ids.contains id | _ => false)).map (·.1)

/-- The commands of one loader or storer core that wait on an entry stop. -/
def rejectCmds (id : Nat) (s : State) (k : Nat × Bool) : State :=
  match rvOf s k.1 k.2 with
  | none => s
  | some x => x.r.slots.foldl (fun s c => if c.2.waits.any (·.id == id) then rejectCmd s x c.1 c.2 id else s) s

/-- An entry is rejected (R32). -/
def rejectEntry (s : State) (t : Nat) (e : FaultEntry) : State :=
  let cs := waitingCohorts s e.id
  let s := (s.groups.flatMap (fun g => [(g.1, false), (g.1, true)])).foldl (rejectCmds e.id) s
  cs.foldl rejectCohort (closeEntry s t e.id)

/-- An entry is accepted (R32): the page's translation leaves the core's buffer and the die's cache. -/
def acceptEntry (s : State) (t : Nat) (e : FaultEntry) : State :=
  let s := s.onCore e.core (fun C => { C with tlb := C.tlb.filter (fun x => !x.hits t e.va) })
  let s := s.onDie (e.core / 128) (fun D => { D with leaf := D.leaf.filter (fun x => !x.hits t e.va) })
  closeEntry s t e.id

/-- The outstanding entry of a tenant with a sequence number. -/
def entryOf (s : State) (t : Nat) (seq : Word) : Option FaultEntry := (s.tenant t).faults.find? (fun e => e.seq == some seq)

/-- TXFRES, ANS = 0 (R32). -/
def execTxfresAccept (t : Nat) (seq : Word) (s : State) : Out :=
  .next (match entryOf s t seq with | none => s | some e => acceptEntry s t e)

/-- TXFRES, ANS = 1 (R32). -/
def execTxfresReject (t : Nat) (seq : Word) (s : State) : Out :=
  .next (match entryOf s t seq with | none => s | some e => rejectEntry s t e)

/-! ## TXCTL and TXFRT (R25, R32, R84, R452) -/

/-- The reduction overflow area as the check of R452 leaves it: base and entries. -/
def areaChecked (T : Tenant) : Option (Nat × Nat) :=
  let base := bitsOf T.tlroa.toNat 51 12 * 4096
  let n := 4096 * T.tlros.toNat
  if n == 0 || !inWritableWindow T base n || touchesReserved base n then none else some (base, n / 16)

/-- The cohorts of a tenant with their cores. -/
def tenantCohorts (s : State) (t : Nat) : List (Nat × Nat) :=
  s.cohorts.filterMap (fun p => match ctxOf s p.1 with | some x => if x.t == t then some (x.core, p.1) else none | none => none)

/-- A write of TXCTL (R25, R32, R84, R452). -/
def writeTxctl (s : State) (t : Nat) (v : Dword) : State :=
  let old := (s.tenant t).txctl
  let new := v &&& 0xFFFF01
  let s := s.onTenant t (fun T => { T with txctl := new })
  if !old.getLsbD 0 && new.getLsbD 0 then
    s.onTenant t (fun T => { T with
      fseq := 0, txfrh := 0, txfrt := 0, area := areaChecked T, areaUsed := if areaChecked T == T.area then T.areaUsed else [] })
  else if old.getLsbD 0 && !new.getLsbD 0 then
    let s := (tenantCohorts s t).foldl (fun s p => cancelFutures s p.1 t p.2) s
    (s.tenant t).faults.foldl (fun s e => rejectEntry s t e) s
  else s

/-- TXCTL_WRITE. -/
def execTxctlWrite (t : Nat) (v : Dword) (s : State) : Out := .next (writeTxctl s t v)

/-- A write of TXFRT (R25). -/
def writeTxfrt (s : State) (t : Nat) (v : Dword) : State :=
  let T := s.tenant t
  let size := frSize T
  let x := bitsOf v.toNat 18 0
  if decide ((T.txfrh + (size - x % size)) % size ≤ (T.txfrh + (size - T.txfrt % size)) % size) then
    s.onTenant t (fun T => { T with txfrt := x })
  else s

/-- TXFRT_WRITE. -/
def execTxfrtWrite (t : Nat) (v : Dword) (s : State) : Out := .next (writeTxfrt s t v)

/-! ## Invalidation (R36 to R38) -/

/-- A write of TXINV (R37). -/
def writeTxinv (s : State) (t : Nat) (v : Dword) : State :=
  s.onTenant t (fun T => if T.inv.isSome then { T with lost := true }
    else if dbits v 63 62 ≤ 1 then { T with inv := some v, invn := T.txinvn } else T)

/-- TXINV, KIND 0. -/
def execTxinvAll (t : Nat) (s : State) : Out := .next (writeTxinv s t 0)
/-- TXINV, KIND 1. -/
def execTxinvRange (t : Nat) (page : BitVec 44) (s : State) : Out :=
  .next (writeTxinv s t (BitVec.ofNat 64 (2 ^ 62 + page.toNat * 65536)))
/-- TXINV, KIND 2 or 3 (R37): nothing, but LOST while BUSY. -/
def execTxinvNone (t : Nat) (kind : BitVec 2) (s : State) : Out :=
  .next (if kind.toNat < 2 then s else writeTxinv s t (BitVec.ofNat 64 (kind.toNat * 2 ^ 62)))

/-- Whether an invalidation covers a span of n bytes (R37). -/
def invCovers (v : Dword) (n : Word) (a len : Nat) : Bool :=
  let lo := dbits v 59 16 * 65536
  dbits v 63 62 == 0 || (decide (lo < a + len) && decide (a < lo + (n.toNat + 1) * 65536))

/-- Every cached translation, line and pointer of a tenant that an invalidation covers is dropped, and the translation that a started
GRAPH keeps for its completion record (R38, R63). -/
def dropCovered (s : State) (t : Nat) (cov : Nat → Nat → Bool) : State :=
  let keepT := fun e : TlbEntry => !(e.t == t && cov e.va (2 ^ e.sz))
  let s := { s with
    queues := s.queues.map (fun q => (q.1, { q.2 with window := q.2.window.map (fun p =>
      if queueTenant q.1 == t && cov (p.num' 56 8) 32 then { p with crecAt := [] } else p) })),
    cores := s.cores.map (fun c => (c.1, { c.2 with tlb := c.2.tlb.filter keepT, l1d := c.2.l1d.filter (fun l => !(l.t == t && cov l.va 64)) })),
    dies := s.dies.map (fun d => (d.1, { d.2 with
      leaf := d.2.leaf.filter keepT,
      tables := d.2.tables.filter (fun e => !(e.t == t && cov e.va (2 ^ (16 + 11 * (e.lvl + 1))))) })) }
  dropCode s t (fun va => cov va 64)

/-- Whether a tenant has a write to another package without acknowledgement, or a future request that was translated in a covered
range and is not answered: a held one is performed when it is answered (R38, R113). -/
def stillOut (s : State) (t : Nat) (cov : Nat → Nat → Bool) : Bool :=
  let mine := fun q : FutReq => q.pkg.isNone && cov q.va 16 && ((ctxOf s q.c).any (fun x => x.t == t))
  remoteOutstanding s t || s.cores.any (fun p => p.2.freqs.any mine) || s.slices.any (fun p => p.2.held.any mine)

/-- INVALIDATION_COMPLETE (R38): the tenant's earlier accesses are performed, and nothing that is covered stays cached. -/
def execInvalidationComplete (t : Nat) (s : State) : Out :=
  let T := s.tenant t
  .next (match T.inv with
    | none => s
    | some v =>
      let slots := (s.launches.filter (fun l => l.2.t == t)).map (·.1)
      let s' := slots.foldl (fun s k => drainTenant s t k) s
      if stillOut s' t (invCovers v T.invn) then s
      else (dropCovered s' t (invCovers v T.invn)).onTenant t (fun T => { T with inv := none }))

end Sys2Proof.Machine
end

