-- ==== Sys2Proof/Machine/Debug.lean ====
section
/-! DEFINITION. The debug block: trace registers, samples, and the debugger's commands (R438 to R449). -/

namespace Sys2Proof.Machine

/-! ## Trace (R439, R442) -/

/-- A write of TRCTL (R439). -/
def writeTrctl (s : State) (t : Nat) (v : Dword) : State :=
  s.onTenant t (fun T =>
    let rise := !T.trctl.getLsbD 0 && v.getLsbD 0
    { T with trctl := v &&& 0xFFFF00FF, trh := if rise then 0 else T.trh, trlost := if rise then 0 else T.trlost })

/-- TRACE_ENABLE (R439): a write of TRCTL that raises EN. -/
def execTraceEnable (t : Nat) (v : Dword) (s : State) : Out :=
  .next (if !(s.tenant t).trctl.getLsbD 0 && v.getLsbD 0 then writeTrctl s t v else s)

/-- The sample period of a tenant in clk, 0 for no samples (R439, R442). -/
def samplePeriod (T : Tenant) : Nat := if T.trctl.getLsbD 0 then bitsOf T.trctl.toNat 31 16 * 64 else 0

/-- The next resident cohort of a tenant on a core, round robin by cohort slot (R442). -/
def nextSample (s : State) (core t : Nat) : Option (Nat × Cohort) :=
  let cs := (cohortsOn s core).filter (fun p => (launchOf s p.2).any (fun l => l.2.t == t))
  let last := (get (31, 0) (s.core core).sampled t).1
  let rank := fun p : Nat × Cohort => (coreSlot p.2 + 31 - last % 32) % 32
  (sortBy (fun a b => decide (rank a ≤ rank b)) cs).head?

/-- Whether a core has taken a tenant's sample of this clk. -/
def sampledNow (s : State) (core t : Nat) : Bool := (get (31, 0) (s.core core).sampled t).2 == s.clk + 1

/-- One tenant's sample of a core: one in each clk that ends a period (R442). -/
def sampleTenant (core : Nat) (s : State) (t : Nat) : State :=
  let p := samplePeriod (s.tenant t)
  if p == 0 || s.clk % p != 0 || sampledNow s core t then s
  else match nextSample s core t with
    | none => s
    | some (_, co) =>
      let data := (if co.park.isSome then 1 else 0) + (if co.handler then 2 else 0)
      traceRecord (s.onCore core (fun C => { C with sampled := put (31, 0) C.sampled t (coreSlot co, s.clk + 1) })) t 1 0 (whoIs s co co.spc) data

/-- TRACE_SAMPLE (R442). -/
def execTraceSample (core : Nat) (s : State) : Out := .next ((s.tenants.map (·.1)).foldl (sampleTenant core) s)

/-! ## Commands (R439, R446) -/

/-- The fields of DBGCMD (R439). -/
structure DbgCmd where
  op    : Nat
  hslot : Nat
  space : Nat
  cohix : Nat
  lane  : Nat
  lslot : Nat
  rsv   : Nat
  index : Nat
/-- The fields of a value of DBGCMD. -/
def dbgCmdOf (v : Dword) : DbgCmd :=
  ⟨dbits v 63 60, dbits v 59 57, dbits v 56 54, dbits v 53 49, dbits v 48 44, dbits v 43 38, dbits v 37 20, dbits v 19 0⟩

/-- A command fails (R439). -/
def dbgFail (s : State) (t code : Nat) : State := s.onTenant t (fun T => { T with dbgst := 3, dbgfail := code })
/-- A command is done. -/
def dbgDone (s : State) (t : Nat) : State := s.onTenant t (fun T => { T with dbgst := 2, dbgfail := 0 })

/-- Whether a command is one that fails with FAIL 3 whatever the state (R439): a reserved OP or SPACE, a reserved field, or a
byte offset that is no multiple of 8. -/
def DbgCmd.bad (c : DbgCmd) : Bool :=
  c.op == 0 || decide (4 < c.op) || c.space == 7 || c.rsv != 0 ||
  ((c.op == 1 || c.op == 2) && decide (3 ≤ c.space) && c.index % 8 != 0)

/-- What every command checks first (R446, R449): its failure code. -/
def dbgRefused (s : State) (t : Nat) (c : DbgCmd) : Option Nat :=
  let T := s.tenant t
  if !T.right then some 2
  else if T.dbgst == 1 || c.bad then some 3
  else if c.op != 4 && (lookup T.halts c.hslot).isNone then some 4
  else none

/-- The group of a halt slot with its node. -/
def haltedGroup (s : State) (t h : Nat) : Option (Nat × Group × NodeCopy) :=
  match lookup (s.tenant t).halts h with
  | none => none
  | some k => match lookup s.groups k.grp with
    | none => none
    | some g => some (k.grp, g, groupNode s g)

/-- The cohort of a group that a command names, when it has not ended. -/
def dbgCohort (s : State) (gid ix : Nat) : Option (Nat × Cohort) :=
  (cohortsOf s gid).find? (fun p => p.2.ix == ix && !p.2.ended)

/-- A command on a register or on memory of a halted group: FAIL 5 out of range (R446). -/
def onHalted (s : State) (t : Nat) (c : DbgCmd) (reg : Nat → Cohort → Group → State) (mem : Nat → Group → Nat → State) : State :=
  match haltedGroup s t c.hslot with
  | none => dbgFail s t 4
  | some (gid, g, n) =>
    if 3 ≤ c.space then (if n.alloc (c.space - 3) < c.index + 8 then dbgFail s t 5 else mem gid g (c.space - 3))
    else match dbgCohort s gid c.cohix with
      | none => dbgFail s t 5
      | some (k, co) =>
        let top := if c.space == 0 then 64 else if c.space == 1 then co.nv else 22
        if top ≤ c.index then dbgFail s t 5 else reg k co g

/-- Whether a register that a READ or a WRITE names waits for a result on its way: the group itself would wait for it (R281, R446). A
result that comes only with the fill of a cell is not waited for (assumption 76). -/
def resultComes (s : State) (c : DbgCmd) (k : Nat) (co : Cohort) : Bool :=
  match c.space with
  | 0 => co.exports.any (fun e => e.reg == c.index) || co.pend.any (fun p => p.scalar && p.regs.contains c.index)
  | 1 => co.pend.any (fun p => !p.scalar && p.regs.contains c.index && !(p.future && p.answer.isNone && holdsFuture s k))
  | _ => !co.exports.isEmpty

/-- Whether a command must wait for such a result. -/
def dbgMustWait (s : State) (t : Nat) (c : DbgCmd) : Bool :=
  decide (c.space < 3) && (haltedGroup s t c.hslot).any (fun g => (dbgCohort s g.1 c.cohix).any (fun p => resultComes s c p.1 p.2))

/-- READ (R446). -/
def dbgRead (s : State) (t : Nat) (c : DbgCmd) : State :=
  let answer := fun v : Dword => dbgDone (s.onTenant t (fun T => { T with dbgdata := v })) t
  onHalted s t c
    (fun _ co g =>
      let v := if c.space == 0 then co.reg c.index else if c.space == 1 then co.vreg c.index c.lane else specialReg s co g c.index
      answer (v.setWidth 64))
    (fun _ g sp => answer (BitVec.ofNat 64 (leNat (g.read sp c.index 8))))

/-- WRITE (R446): DBGDATA is stored as the cohort would store it. -/
def dbgWrite (s : State) (t : Nat) (c : DbgCmd) : State :=
  let v := (s.tenant t).dbgdata
  let w : Word := v.setWidth 32
  onHalted s t c
    (fun k _ _ =>
      dbgDone (s.onCohort k (fun co =>
        if c.space == 0 then co.setReg c.index w else if c.space == 1 then co.setV c.index c.lane w else setSpecial co c.index w)) t)
    (fun gid _ sp =>
      let b := leBytes 8 v.toNat
      if sp == 3 && regionLocked s gid c.index 8 then dbgFail s t 5
      else if sp == 0 then dbgDone (s.onGroup gid (fun g => g.write 0 c.index b)) t
      else dbgDone (writeBuffer s gid (.lanes (((cohortsOf s gid).find? (fun p => p.2.ix == c.cohix)).elim 0 (·.1))) sp [(c.index, b)]) t)

/-- A halted group goes on from where it halted (R446); a save that was requested meanwhile begins (R445). -/
def releaseGroup (s : State) (t h : Nat) : State :=
  match lookup (s.tenant t).halts h with
  | none => s
  | some k =>
    let s := s.onTenant t (fun T => { T with halts := erase T.halts h })
    let s := s.onGroup k.grp (fun g => { g with halt := none })
    let s := (cohortsOf s k.grp).foldl (fun s p => s.onCohort p.1 (fun co => { co with halted := false })) s
    (cohortsOf s k.grp).foldl (fun s p => holdParked s p.1) s

/-- A command that waits: ST = 1 until its result has come (R439, R446). -/
def dbgHeld (s : State) (t : Nat) (v : Dword) : State := s.onTenant t (fun T => { T with dbgst := 1, dbgfail := 0, dbgWait := some v })

/-- A command that has waited acts once its result has come. -/
def dbgGoes (s : State) (t : Nat) : State :=
  match (s.tenant t).dbgWait with
  | none => s
  | some v =>
    let c := dbgCmdOf v
    if dbgMustWait s t c then s
    else
      let s := s.onTenant t (fun T => { T with dbgWait := none })
      if c.op == 1 then dbgRead s t c else dbgWrite s t c

/-- The commands of every tenant that have waited. -/
def settleDbg (s : State) : State := (s.tenants.map (·.1)).foldl dbgGoes s

/-- One write of DBGCMD (R444, R446, R449). -/
def writeDbgcmd (s : State) (t : Nat) (v : Dword) : State :=
  let c := dbgCmdOf v
  match dbgRefused s t c with
  | some code => dbgFail s t code
  | none =>
    match c.op with
    | 1 => if dbgMustWait s t c then dbgHeld s t v else dbgRead s t c
    | 2 => if dbgMustWait s t c then dbgHeld s t v else dbgWrite s t c
    | 3 => dbgDone (releaseGroup s t c.hslot) t
    | _ => s.onTenant t (fun T => { T with dbgst := 1, dbgfail := 0, haltCmd := some c.lslot })

/-- DBGCMD, OP 1 (R446). -/
def execDbgcmdRead (t : Nat) (v : Dword) (s : State) : Out := .next (if dbits v 63 60 == 1 then writeDbgcmd s t v else s)
/-- DBGCMD, OP 2 (R446). -/
def execDbgcmdWrite (t : Nat) (v : Dword) (s : State) : Out := .next (if dbits v 63 60 == 2 then writeDbgcmd s t v else s)
/-- DBGCMD, OP 3 (R446). -/
def execDbgcmdResume (t : Nat) (v : Dword) (s : State) : Out := .next (if dbits v 63 60 == 3 then writeDbgcmd s t v else s)
/-- DBGCMD, OP 4 (R444). -/
def execDbgcmdHalt (t : Nat) (v : Dword) (s : State) : Out := .next (if dbits v 63 60 == 4 then writeDbgcmd s t v else s)
/-- DBGCMD with a reserved OP, SPACE or field, or while ST = 1 (R439, R446). -/
def execDbgcmdBadCommand (t : Nat) (v : Dword) (s : State) : Out :=
  .next (if (dbgCmdOf v).bad || (s.tenant t).dbgst == 1 then writeDbgcmd s t v else s)

/-- A write of DBGR by the physical function (R449). -/
def writeDbgr (s : State) (t : Nat) (on : Bool) : State :=
  if on then s.onTenant t (fun T => { T with right := true })
  else
    let s := ((s.tenant t).halts.map (·.1)).foldl (fun s h => releaseGroup s t h) s
    let s := if (s.tenant t).dbgst == 1 then dbgFail s t 1 else s
    s.onTenant t (fun T => { T with right := false, haltCmd := none, dbgWait := none })

/-- DBGR_CLEAR (R449). -/
def execDbgrClear (t : Nat) (s : State) : Out := .next (writeDbgr s t false)

/-! ## Read-only registers (R439) -/

/-- DBGST. -/
def dbgstValue (s : State) (t : Nat) : Dword :=
  let T := s.tenant t
  BitVec.ofNat 64 (T.dbgst * 2 ^ 62 + (if T.dbgst == 3 then T.dbgfail else 0) * 2 ^ 56 + T.dbgmiss * 256 +
    (T.halts.map (fun h => 2 ^ h.1)).foldl (· + ·) 0)

/-- DBGH of a halt slot. -/
def dbghValue (s : State) (t h : Nat) : Dword :=
  match lookup (s.tenant t).halts h with
  | none => 0
  | some k => match lookup s.groups k.grp with
    | none => 0
    | some g => BitVec.ofNat 64 (2 ^ 63 + (g.core / 128) * 2 ^ 61 + (g.core % 128) * 2 ^ 54 + g.slot * 2 ^ 48 + g.node * 2 ^ 36 +
        k.coh * 2 ^ 31 + (if k.src == 0 then k.bp * 2 ^ 29 else 0) + k.src * 2 ^ 28)

end Sys2Proof.Machine
end

