-- ==== Sys2Proof/Machine/Anvil.lean ====
section
/-! DEFINITION. Anvil: errors and their records, bring-up, attestation, recovery, and power (R40, R98 to R102, R461 to R469). -/

namespace Sys2Proof.Machine

/-- A change of Anvil. -/
def State.onAnvil (s : State) (f : Anvil → Anvil) : State := { s with anvil := f s.anvil }

/-! ## Recovery (R466) -/

/-- The launches with a group, a record or a resume record on a die. -/
def launchesOnDie (s : State) (die : Nat) : List Nat :=
  let D := s.die die
  dedup ((s.groups.filter (fun p => p.2.core / 128 == die)).map (·.2.slot) ++ D.pages.map (·.slot) ++ D.resumes.map (·.slot) ++
    (D.transit.filter (fun r => r.own || r.origin == 1)).map (·.slot))

/-- Every L2 line of a slice written back to HBM4E (R95, R102): one that holds an uncorrectable error stays bad there. -/
def sliceWritesBack (s : State) (k : Nat) : State :=
  ((s.slice k).bad.foldl lineEvicted s).onSlice k (fun sl => { sl with kept := [] })

/-- A die reset (R466): the die's L2 lines are written back, and every launch with a cohort, record or command on the die ends with
F_DATA. -/
def dieReset (s : State) (die : Nat) : State :=
  let s := ((s.slices.map (·.1)).filter (fun k => sliceDie k == die)).foldl sliceWritesBack s
  (launchesOnDie s die).foldl (fun s k => endLaunch s k 2 7) (s.onDie die (fun D => { D with inReset := true }))

/-- A core that reached 16 uncorrectable errors during a die reset counts anew: of two recovery actions on one die only the die reset is
performed (R467). -/
def resetOnly (s : State) (die : Nat) : State :=
  { s with cores := s.cores.map (fun p => if p.1 / 128 == die && decide (16 ≤ p.2.errs) && !s.anvil.quar.contains p.1 then
      (p.1, { p.2 with errs := 0 }) else p) }

/-- DIE_RESET_END (R466, R467). -/
def execDieResetEnd (die : Nat) (s : State) : Out :=
  .next (if (s.die die).inReset then (resetOnly s die).onDie die (fun D => { D with inReset := false }) else s)

/-- FIRMWARE_CORE_SIGNAL (R466): firmware cores 0 to 3 are the dies' front ends, 4 the memory controller, 5 link management. -/
def execFirmwareCoreSignal (fw : Nat) (s : State) : Out :=
  .next (s.onAnvil (fun a => { a with heard := updateKey a.heard fw (fun _ => s.clk) }))

/-- WATCHDOG_EXPIRY (R466): a released firmware core silent for 4 ms is reset; that of a front end resets its die. -/
def execWatchdogExpiry (fw : Nat) (s : State) : Out :=
  .next (match lookup s.anvil.heard fw with
    | none => s
    | some at_ =>
      if s.clk < at_ + 4 * Config.msClk then s
      else
        let s := s.onAnvil (fun a => { a with heard := updateKey a.heard fw (fun _ => s.clk) })
        if fw < 4 && !(s.die fw).inReset then dieReset s fw else s)

/-- CORE_QUARANTINE (R466, R467). -/
def execCoreQuarantine (core : Nat) (s : State) : Out :=
  .next (if (s.core core).errs < 16 || s.anvil.quar.contains core || (s.die (core / 128)).inReset then s
    else
      let slots := dedup ((groupsOn s core).map (·.2.slot))
      slots.foldl (fun s k => endLaunch s k 2 7) (s.onAnvil (fun a => { a with quar := a.quar ++ [core] })))

/-! ## Errors (R40, R98 to R102) -/

/-- A core's cached lines that hold an address are discarded: of the L1D, or of an instruction cache (R40). -/
def dropCached (s : State) (core part addr : Nat) : State :=
  s.onCore core (fun C => match part with
    | 0 => l1Drop C addr
    | 1 => { C with sic := C.sic.filter (fun l => !(decide (l.va ≤ addr) && decide (addr < l.va + 64))) }
    | _ => { C with lic := C.lic.filter (fun l => !(decide (l.line ≤ addr) && decide (addr < l.line + 192))) })

/-- How many flipped bits the code of a STRUCT corrects, and how many it detects (R99). Flits are replayed, to a burst of 32 bits,
and cache lines are fetched again. For STRUCT 9 R99 gives no code: the model's is SEC-DED (assumption 71). -/
def codeReach (place : Nat) : Nat × Nat :=
  match place with
  | 2 => (2, 3)
  | 4 => (32, 32)
  | 5 => (0, 1)
  | 6 => (1, 1)
  | _ => (1, 2)

/-- Whether the code detects an error (R99, R101). -/
def detected (e : ErrorSite) : Bool := decide (0 < e.bits) && decide (e.bits ≤ (codeReach e.place).2)
/-- Whether the code cannot correct it. -/
def uncorrectable (e : ErrorSite) : Bool := decide ((codeReach e.place).1 < e.bits)

/-- The record that an error gives at once: it names the requesting core and tenant where there are any (R102). -/
def siteRecord (e : ErrorSite) (fatal : Bool) : ErrorRec :=
  ⟨e.place, fatal, if e.place == 1 then 4 else e.die, e.tenant.getD 255, e.core, e.addr⟩

/-- An error that cannot be corrected stays in the storage until a write mends it; whoever reads it reports it (R102). In the
record store it ends the launch of the page, in the scheduler it resets the die (R466). -/
def spoil (s : State) (e : ErrorSite) : State :=
  let line := e.addr / 64
  let mark := fun s : State => { s with badLines := if s.badLines.contains line then s.badLines else s.badLines ++ [line] }
  match e.place with
  | 1 => mark s
  | 2 => (mark s).onSlice (homeSlice e.addr) (fun sl => { sl with bad := sl.bad ++ [line] })
  | 3 =>
    let s := addError s (siteRecord e true)
    if e.part == 0 then
      match (s.die e.die).pages.find? (fun p => p.id == e.owner) with
      | some p => endLaunch s p.slot 2 7
      | none => s
    else dieReset s e.die
  | 5 => s.onCohort e.owner (fun co =>
      if e.part == 0 then { co with badS := co.badS ++ [e.addr] } else { co with badV := co.badV ++ [e.addr] })
  | 7 => s.onGroup e.owner (fun g => { g with bad := g.bad ++ [(0, e.addr / 8 * 8)] })
  | 8 => s.onGroup e.owner (fun g => { g with bad := g.bad ++ [(e.part % 3 + 1, e.addr / 8 * 8)] })
  | 9 => addError s (siteRecord e true)
  | _ => s

/-- ERROR_DETECT (R40, R99, R102): an error that the code detects is corrected, or spoils what it met. -/
def execErrorDetect (e : ErrorSite) (s : State) : Out :=
  .next (if !detected e then s else
    let s := if e.place == 6 then dropCached s e.core e.part e.addr else s
    if uncorrectable e then spoil s e else addError s (siteRecord e false))

/-- The lines whose error is in a slice's storage. -/
def sliceBad (s : State) (l : Nat) : Bool := (s.slice (homeSlice (l * 64))).bad.contains l

/-- PATROL_SCRUB (R98, R102): every line of HBM4E that cannot be corrected is reported, and stays so. -/
def execPatrolScrub (s : State) : Out :=
  .next ((s.badLines.filter (fun l => decide (l * 64 < 2 ^ 40) && !sliceBad s l)).foldl
    (fun s l => addError s ⟨1, true, 4, 255, noCore, l * 64⟩) s)

/-- STORAGE_SWEEP (R101, R102): a line of the L2 that cannot be corrected is reported and written to HBM4E, where it stays so. -/
def execStorageSweep (s : State) : Out :=
  .next (
    let found := s.badLines.filter (fun l => sliceBad s l)
    let s := found.foldl (fun s l => addError s ⟨2, true, sliceDie (homeSlice (l * 64)), 255, noCore, l * 64⟩) s
    { s with slices := s.slices.map (fun p => (p.1, { p.2 with bad := [] })) })

/-! ## Bus addresses (R454, R463) -/

/-- Anvil writes host memory, in posted order, with the physical function's requester ID (R454). -/
def busWrite (s : State) (a : Nat) (b : List Byte) : State :=
  let cs := cellsOf (busPa a) b
  { applyCells s noCore 255 cs with sysOut := s.sysOut ++ [⟨0, a, b.length, cs⟩] }

/-! ## The error ring (R463, R464) -/

/-- Records of the error ring. -/
def errSize (a : Anvil) : Nat := 2 ^ (bitsOf a.errctl.toNat 4 1 + 6)

/-- The bytes of an error record (R464). -/
def errBytes (e : ErrorRec) (seq : Word) : List Byte :=
  leBytes 4 seq.toNat ++ leBytes 1 e.place ++ leBytes 1 (if e.fatal then 1 else 0) ++ leBytes 1 e.die ++ leBytes 1 e.tenant ++
  leBytes 2 (if e.core < Config.coreCount then e.core % 128 else 0xFFFF) ++ leBytes 6 0 ++ leBytes 8 e.addr ++ leBytes 8 0

/-- ERROR_RECORD_POST (R464): the oldest record is written and ERRH advances, or it is dropped and counted. -/
def execErrorRecordPost (s : State) : Out :=
  .next (match s.anvil.errs with
    | [] => s
    | e :: r =>
      let a := s.anvil
      let s := s.onAnvil (fun a => { a with errs := r })
      if !a.errctl.getLsbD 0 || (a.errh + 1).toNat % errSize a == a.errt.toNat % errSize a then
        s.onAnvil (fun a => { a with errlost := a.errlost + 1 })
      else
        (busWrite s (bitsOf a.errbase.toNat 51 5 * 32 + 32 * (a.errh.toNat % errSize a)) (errBytes e a.errseq)).onAnvil
          (fun a => { a with errh := a.errh + 1, errseq := a.errseq + 1 }))

/-- A write of ERRCTL (R463). -/
def writeErrctl (s : State) (v : Dword) : State :=
  s.onAnvil (fun a =>
    let rise := !a.errctl.getLsbD 0 && v.getLsbD 0
    { a with errctl := v &&& 0x1F, errh := if rise then 0 else a.errh, errlost := if rise then 0 else a.errlost })

/-- ERROR_RING_ENABLE (R463): a write of ERRCTL that raises EN. -/
def execErrorRingEnable (v : Dword) (s : State) : Out :=
  .next (if !s.anvil.errctl.getLsbD 0 && v.getLsbD 0 then writeErrctl s v else s)

/-! ## Bring-up (R461, R462) -/

/-- The module as a reset leaves it: what is outside it, its flash and its fuses stay. -/
def moduleFresh (s : State) (on : Bool) : State :=
  { State.reset with
      powered := on, mem := s.mem.filter (fun c => decide (2 ^ 40 ≤ c.1)), agenda := s.agenda, msgs := s.msgs, sysOut := s.sysOut, hostOut := s.hostOut,
      draw := s.draw,
      anvil := { flash := s.anvil.flash, keyHash := s.anvil.keyHash, minVer := s.anvil.minVer, secret := s.anvil.secret } }

/-- MODULE_RESET (R461). -/
def execModuleReset (s : State) : Out := .next (moduleFresh s true)

/-- POWER_LOSS (R461): every state and every record of the module is lost. -/
def execPowerLoss (s : State) : Out := .next (moduleFresh s false)

/-- n bytes from byte i of an image. -/
def imageBytes (b : List Byte) (i n : Nat) : List Byte := (b.drop i).take n
/-- A number in an image. -/
def imageNum (b : List Byte) (i n : Nat) : Nat := leNat (imageBytes b i n)
/-- The body of an image. -/
def imageBody (b : List Byte) : List Byte := imageBytes b 5376 (imageNum b 4 4)
/-- The bytes that the measurement and the signature cover (R462). -/
def imageSigned (b : List Byte) : List Byte := b.take 1960 ++ imageBody b

/-- Whether an image's header is right for a KIND (R461). -/
def headerGood (b : List Byte) (kind : Nat) : Bool :=
  imageNum b 0 2 == kind && decide (2 ^ 20 ≤ imageNum b 4 4) && decide (imageNum b 4 4 ≤ 4 * 2 ^ 20) &&
  (imageBytes b 5269 107).all (· == 0) && decide (5376 + imageNum b 4 4 ≤ b.length)

/-- What Anvil finds of an image (R462, R463): FAIL of AVSTAT, 0 when it is accepted. -/
def imageFail (a : Anvil) (b : List Byte) (kind : Nat) : Nat :=
  if !headerGood b kind then 4
  else if Config.shake256 (imageBytes b 8 1952) != a.keyHash then 1
  else if !Config.mldsaVerify (imageBytes b 8 1952) (imageBytes b 1960 3309) (imageSigned b) then 2
  else if imageNum b 2 2 < get 0 a.minVer kind then 3
  else 0

/-- The firmware cores that the image of a KIND serves. -/
def servedBy (kind : Nat) : List Nat := match kind with | 1 => [0, 1, 2, 3] | 2 => [4] | _ => [5]

/-- Steps 2 to 4 (R462): an image is verified, its cores are released, and memory or links are trained. -/
def verifyStep (s : State) (kind : Nat) : State :=
  let a := s.anvil
  let b := (lookup a.flash kind).getD []
  match imageFail a b kind with
  | 0 =>
    let (k, s) := s.drawn
    let s := s.onAnvil (fun a => { a with
      measures := store a.measures kind (Config.shake256 (imageSigned b)), versions := store a.versions kind (imageNum b 2 2),
      heard := (servedBy kind).foldl (fun h f => store h f s.clk) a.heard })
    if kind == 1 then s
    else if !Config.trainingOk k then s.onAnvil (fun a => { a with fail := 5 })
    else if kind == 3 then { s with link := { s.link with portup := Config.portsTrained k } } else s
  | f => s.onAnvil (fun a => { a with fail := f })

/-- BRINGUP_STEP (R462, R463): the next step begins and ends. After a failure there is none. -/
def execBringupStep (s : State) : Out :=
  .next (if !s.powered || s.anvil.fail != 0 || s.anvil.ready then s
    else
      let s := s.onAnvil (fun a => { a with step := a.step + 1 })
      match s.anvil.step with
      | 2 => verifyStep s 1
      | 3 => verifyStep s 2
      | 4 => verifyStep s 3
      | 5 => s.onAnvil (fun a => { a with ready := true })
      | _ => s)

/-! ## Attestation (R465) -/

/-- The four words of AVNONCE. -/
def nonceWords (a : Anvil) : List Dword := (List.range 4).map (fun i => get 0 a.nonce i)

/-- A write of AVCMD (R463, R465). -/
def writeAvcmd (s : State) (v : Dword) : State :=
  let a := s.anvil
  if dbits v 63 56 != 1 || a.st == 1 then s
  else if !a.ready then s.onAnvil (fun a => { a with st := 3 })
  else s.onAnvil (fun a => { a with st := 1, dst := dbits v 51 6 * 64, asked := nonceWords a })

/-- ATTEST (R465). -/
def execAttest (v : Dword) (s : State) : Out := .next (writeAvcmd s v)

/-- The bytes of a 512-bit value. -/
def hashBytes (h : BitVec 512) : List Byte := leBytes 64 h.toNat

/-- The measurements of the three images, in KIND order. -/
def measureBytes (a : Anvil) : List Byte := [1, 2, 3].flatMap (fun k => hashBytes ((lookup a.measures k).getD 0))

/-- The 32-byte seed of the device identity key (R465): the first 256 bits that SHAKE256 gives. -/
def identitySeed (a : Anvil) : BitVec 256 := (Config.shake256 (a.secret ++ measureBytes a)).setWidth 256

/-- Bytes 0 to 2,255 of a report (R465). -/
def reportHead (a : Anvil) : List Byte :=
  a.asked.flatMap (fun w => leBytes 8 w.toNat) ++ hashBytes a.keyHash ++ measureBytes a ++
  [1, 2, 3].flatMap (fun k => leBytes 2 ((lookup a.versions k).getD 0)) ++ leBytes 2 a.quar.length ++ leBytes 8 a.uncorr ++
  (List.range 1952).map (Config.identityKey (identitySeed a))

/-- ATTEST_COMPLETE (R465, R467): the signed report is written, not during a die reset. -/
def execAttestComplete (s : State) : Out :=
  .next (
    let a := s.anvil
    if a.st != 1 || s.dies.any (·.2.inReset) then s
    else
      let h := reportHead a
      let sig := (List.range 3309).map (Config.reportSig (identitySeed a) h)
      (busWrite s a.dst (padTo 8192 (h ++ sig))).onAnvil (fun a => { a with st := 2 }))

/-! ## Power (R463, R469) -/

/-- CLKST.MHZ (R463, R469). -/
def clockMhz (a : Anvil) : Nat := (150000 - 9375 * a.mhzDrop) / 100

/-- CLOCK_THROTTLE (R469): one step of 93.75 MHz, between 750 and 1,500 MHz. -/
def execClockThrottle (up : Bool) (s : State) : Out :=
  .next (s.onAnvil (fun a => { a with mhzDrop := if up then a.mhzDrop - 1 else min 8 (a.mhzDrop + 1) }))

/-- POWER_MEASUREMENT (R463): at the end of a whole millisecond since module reset. -/
def execPowerMeasurement (watts : Word) (s : State) : Out :=
  .next (if s.clk == 0 || s.clk % Config.msClk != 0 then s else s.onAnvil (fun a => { a with pwr := watts }))

end Sys2Proof.Machine
end

