-- ==== Sys2Proof/Machine/Links.lean ====
section
/-! DEFINITION. The host's aperture, accesses of other packages, and the ports (R126, R450, R451, R454 to R459, R466). -/

namespace Sys2Proof.Machine

/-! ## BAR2 (R450) -/

/-- HOST_BAR2_ACCESS (R450): a write of bytes, or a read of `len` bytes, through the aperture; the read's bytes go back to the host. -/
def execHostBar2Access (off len : Nat) (data : Option (List Byte)) (s : State) : Out :=
  let base := s.link.hbap * 2 ^ 36
  .next (match data with
    | some b =>
      if 2 ^ 36 < off + b.length || !homeReady s (base + off) then s
      else (byLine (cellsOf (base + off) b)).foldl (fun s cs => targetWrite s noCore 255 cs) s
    | none =>
      if 2 ^ 36 < off + len || !homeReady s (base + off) then s
      else
        let bad := s.badLines.filter (fun l => decide (l * 64 < base + off + len) && decide (base + off < l * 64 + 64))
        let s := bad.foldl (fun s l => memError s noCore 255 (l * 64)) s
        { s with hostOut := s.hostOut ++ [if bad.isEmpty then some (readMem s (base + off) len) else none] })

/-! ## Accesses of other packages (R456, R457) -/

/-- Inbound window n, when it is in force: first byte, last byte, WR, key (R456). -/
def inboundWindow (L : Link) (n : Nat) : Option (Nat × Nat × Bool × Nat) :=
  let b := (get 0 L.dwb n).toNat
  let l := (get 0 L.dwl n).toNat
  if bitOf b 0 then some (bitsOf b 39 16 * 65536, bitsOf l 39 16 * 65536 + 65535, bitOf b 1, bitsOf b 63 48) else none

/-- Whether an access of n bytes is admitted (R456). -/
def admitted (L : Link) (key a n : Nat) (wr : Bool) : Bool :=
  ((List.range 16).filterMap (inboundWindow L)).any (fun w =>
    decide (w.1 ≤ a) && decide (a + n ≤ w.2.1 + 1) && (w.2.2.2 == 0 || w.2.2.2 == key) && (!wr || w.2.2.1))

/-- The bytes that an access names, and whether it writes them. -/
def remoteSpan (k : RemoteKind) : Nat × Bool :=
  match k with
  | .load n => (n, false)
  | .store b => (b.length, true)
  | .atomic _ w64 _ _ => (if w64 then 8 else 4, true)
  | .reduce _ w64 _ => (if w64 then 8 else 4, true)
  | .futureLoad _ => (16, false)
  | .futureFill _ => (16, true)
  | .record _ _ _ => (0, false)

/-- A record that comes from another package (R198, R211, R459). -/
def remoteRec (id pkg : Nat) (h : BitVec 128) (handle : Dword) (payload : List Byte) (key : BitVec 16) : Rec :=
  { id := id, spkg := pkg, sslot := dbits h 101 96, sgen := BitVec.ofNat 16 (dbits h 117 102), slot := dbits h 85 80,
    gen := BitVec.ofNat 16 (dbits h 79 64), node := dbits h 59 48, scope := dbits h 46 44, depth := dbits h 38 33,
    tag := BitVec.ofNat 32 (dbits h 31 0), handle := handle, payload := payload, origin := 2,
    res := h.getLsbD 47, key := some key, credit := true }

/-- An admitted access performed at its home slice. -/
def performRemote (s : State) (a : RemoteAccess) : State :=
  let pa := a.off.toNat
  let n := (remoteSpan a.kind).1
  let bad := replyTo (memError s noCore 255 pa) a.pkg 2 []
  let ok := fun (s : State) (b : List Byte) => replyTo s a.pkg 0 b
  match a.kind with
  | .load n => if rangeBad s pa n then bad else ok s (readMem s pa n)
  | .store b => ok ((byLine (cellsOf pa b)).foldl (fun s cs => targetWrite s noCore 255 cs) s) []
  | .atomic code w64 x y =>
    if rangeBad s pa n then bad
    else
      let old := leNat (readMem s pa n)
      let new := atomicWord code.toNat (if w64 then 64 else 32) old x.toNat y.toNat
      ok (targetWrite s noCore 255 (cellsOf pa (leBytes n new))) (leBytes n old)
  | .reduce code w64 x =>
    if rangeBad s pa n then bad
    else ok (targetWrite s noCore 255 (cellsOf pa (leBytes n
      (atomicWord code.toNat (if w64 then 64 else 32) (leNat (readMem s pa n)) x.toNat 0)))) []
  | .futureLoad w64 =>
    if rangeBad s pa 16 then bad
    else
      let q : FutReq := { c := 0, tag := 0, pa := pa, w64 := w64, scope := 4, at_ := s.clk, pkg := some a.pkg }
      if cellState s pa != 0 then answerFuture s q 0 (cellValue s pa)
      else if (s.slice (homeSlice pa)).held.length < Config.deferralEntries then
        s.onSlice (homeSlice pa) (fun sl => { sl with held := sl.held ++ [q] })
      else answerFuture s q 1 0
  | .futureFill v =>
    if rangeBad s pa 16 then bad else ok (targetWrite s noCore 255 (cellsOf pa (leBytes 8 v.toNat ++ leBytes 8 1))) []
  | .record _ _ _ => s

/-- Whether this package is a member of the domain (R455). -/
def isMember (s : State) : Bool := s.link.len && s.link.pkgid != 1023

/-- REMOTE_ACCESS_ARRIVAL (R456 to R459): an access is admitted and performed, or refused; a record goes to its die. -/
def execRemoteAccessArrival (a : RemoteAccess) (s : State) : Out :=
  .next (if !isMember s then s
    else match a.kind with
    | .record h handle payload =>
      let (id, s) := freshId s
      let r := remoteRec id a.pkg h handle payload a.key
      let die := match launchAt s r.slot r.gen with | some l => sliceDie (recSlice (l.node r.node) r) | none => 0
      s.onDie die (fun D => { D with transit := D.transit ++ [r] })
    | k =>
      if !homeReady s a.off.toNat then s
      else if admitted s.link a.key.toNat a.off.toNat (remoteSpan k).1 (remoteSpan k).2 then performRemote s a
      else replyTo s a.pkg 1 [])

/-! ## Ports (R458, R466) -/

/-- PORT_FAILURE (R458): the port is not trained any more. -/
def execPortFailure (port : Nat) (s : State) : Out :=
  .next { s with link := { s.link with portup := s.link.portup &&& ~~~(BitVec.ofNat 36 (2 ^ port)), retrain := s.link.retrain.filter (·.1 != port) } }

/-- LINK_RETRAIN (R466): a trained port is retrained; requests wait for it for 100 µs. -/
def execLinkRetrain (port : Nat) (s : State) : Out :=
  .next (if !s.link.portup.getLsbD port || s.link.retrain.any (·.1 == port) then s
    else { s with link := { s.link with portup := s.link.portup &&& ~~~(BitVec.ofNat 36 (2 ^ port)), retrain := s.link.retrain ++ [(port, s.clk)] } })

/-- LINK_RETRAIN_END (R466). -/
def execLinkRetrainEnd (port : Nat) (s : State) : Out :=
  .next (if !s.link.retrain.any (·.1 == port) then s
    else { s with link := { s.link with portup := s.link.portup ||| BitVec.ofNat 36 (2 ^ port), retrain := s.link.retrain.filter (·.1 != port) } })

/-! ## Link registers (R451, R452) -/

/-- A write of PKGCTL (R451). -/
def writePkgctl (s : State) (v : Dword) : State :=
  { s with link := { s.link with len := v.getLsbD 63, hbap := dbits v 13 10, pkgid := if s.link.len then s.link.pkgid else dbits v 9 0 } }

/-- PKGCTL_WRITE (R451). -/
def execPkgctlWrite (v : Dword) (s : State) : Out := .next (writePkgctl s v)

/-- A write of TLBIND (R452). -/
def writeTlbind (s : State) (t : Nat) (v : Dword) : State :=
  let vf := dbits v 5 0
  if 32 < vf || (vf != 0 && s.tenants.any (fun p => p.1 != t && p.2.vf == vf)) then s
  else s.onTenant t (fun T => { T with vf := vf })

/-- TLBIND_WRITE (R452). -/
def execTlbindWrite (t : Nat) (v : Dword) (s : State) : Out := .next (writeTlbind s t v)

end Sys2Proof.Machine
end

