-- ==== Sys2Proof/Machine/HostRegs.lean ====
section
/-! DEFINITION. The register BARs: which register an access names, what it reads as, and what a write does (R7, R8, R24,
R217, R235, R423, R439, R450 to R453, R456, R463, R502). -/

namespace Sys2Proof.Machine

/-- A block of registers. -/
inductive Block where
  /-- The translation block of a tenant; `full` in the physical function (R24). -/
  | tx (t : Nat) (full : Bool)
  | queue (q : Nat)
  | ldest (fn : Nat)
  | trap (t : Nat)
  /-- The debug block of a tenant; `pf` in the physical function (R439). -/
  | debug (t : Nat) (pf : Bool)
  | link
  | tlink (t : Nat)
  | inbound (n : Nat)
  | anvil
  deriving DecidableEq, Repr

/-- The block and offset that an offset of a function's BAR0 names (R24, R217, R235, R423, R439, R451 to R453, R456, R463). -/
def blockAt (s : State) (fn off : Nat) : Option (Block × Nat) :=
  let within := fun lo size : Nat => decide (lo ≤ off) && decide (off < lo + size)
  if fn == 0 then
    if within 0x01000000 0x20000 then some (.tx ((off - 0x01000000) / 4096) true, off % 4096)
    else if within 0x02000000 0x2000 then some (.queue ((off - 0x02000000) / 128), off % 128)
    else if within 0x02002000 8 then some (.ldest 0, off % 8)
    else if within 0x03000000 0x20000 then some (.trap ((off - 0x03000000) / 4096), off % 4096)
    else if within 0x04000000 0x20000 then some (.debug ((off - 0x04000000) / 4096) true, off % 4096)
    else if within 0x05000000 0x10000 then some (.link, off - 0x05000000)
    else if within 0x05010000 0x800 then some (.tlink ((off - 0x05010000) / 64), off % 64)
    else if within 0x05020000 0x100 then some (.inbound ((off - 0x05020000) / 16), off % 16)
    else if within 0x06000000 0x1000 then some (.anvil, off - 0x06000000)
    else none
  else match boundTenant s fn with
    | none => none
    | some t =>
      if off < 0x1000 then some (.tx t false, off)
      else if within 0x10000 0x2000 then some (.queue (64 * (t + 1) + (off - 0x10000) / 128), off % 128)
      else if within 0x12000 8 then some (.ldest fn, off % 8)
      else if within 0x13000 0x1000 then some (.trap t, off % 4096)
      else if within 0x14000 0x1000 then some (.debug t false, off % 4096)
      else none

/-! ## Reads -/

/-- The value of a register of a translation block (R24 to R26, R37). -/
def txValue (T : Tenant) (full : Bool) (o : Nat) : Dword :=
  match o with
  | 0x000 => if full then T.txctl else 0
  | 0x008 => if full then T.txroot else 0
  | 0x010 => T.txfrb
  | 0x018 => BitVec.ofNat 64 T.txfrh
  | 0x020 => BitVec.ofNat 64 T.txfrt
  | 0x038 => T.txinvn.setWidth 64
  | 0x040 => BitVec.ofNat 64 ((if T.inv.isSome then 1 else 0) + (if T.lost then 2 else 0))
  | o => if full && decide (0x100 ≤ o) && decide (o < 0x200) then
      (if o % 16 == 0 then get 0 T.txwb ((o - 0x100) / 16) else if o % 16 == 8 then get 0 T.txwl ((o - 0x100) / 16) else 0) else 0

/-- The value of a register of a queue (R218, R219). -/
def queueValue (Q : Queue) (o : Nat) : Dword :=
  let n := fun x : Nat => BitVec.ofNat 64 x
  match o with
  | 0x00 => Q.qbase
  | 0x08 => n (Q.fvec.toNat * 2 ^ 16 + Q.sz * 256 + (if Q.run then 2 else 0) + (if Q.en then 1 else 0))
  | 0x18 => Q.head.setWidth 64
  | 0x20 => Q.tokens
  | 0x30 => Q.timeline
  | 0x38 => Q.irqt
  | 0x40 => n (Q.vec.toNat * 2 ^ 16 + (if Q.arm then 1 else 0))
  | 0x48 => n (Q.cause * 2 ^ 56 + Q.code * 2 ^ 48 + Q.pkt.toNat)
  | _ => 0

/-- The value of a register of a debug block (R439). -/
def debugValue (s : State) (t o : Nat) : Dword :=
  let T := s.tenant t
  match o with
  | 0x08 => T.dbgdata
  | 0x10 => dbgstValue s t
  | 0x80 => T.trbase
  | 0x88 => T.trctl
  | 0x90 => T.trh.setWidth 64
  | 0x98 => T.trt.setWidth 64
  | 0xA0 => T.trlost
  | 0x100 => if T.right then 1 else 0
  | o => if o % 8 != 0 then 0
         else if decide (0x20 ≤ o) && decide (o < 0x40) then get 0 T.dbgbp ((o - 0x20) / 8)
         else if decide (0x40 ≤ o) && decide (o < 0x80) then dbghValue s t ((o - 0x40) / 8) else 0

/-- The value of a register of the link block (R451). -/
def linkValue (L : Link) (o : Nat) : Dword :=
  match o with
  | 0x000 => BitVec.ofNat 64 ((if L.len then 2 ^ 63 else 0) + L.hbap * 1024 + L.pkgid)
  | 0x008 => L.portup.setWidth 64
  | o => if decide (0x100 ≤ o) && decide (o < 0x180) && o % 8 == 0 then get 0 L.dommap ((o - 0x100) / 8) else 0

/-- The value of a link register of a tenant (R452). -/
def tlinkValue (T : Tenant) (o : Nat) : Dword :=
  match o with
  | 0x00 => BitVec.ofNat 64 T.vf
  | 0x08 => T.tlroa
  | 0x10 => T.tlros.setWidth 64
  | 0x18 => T.tldkey.setWidth 64
  | 0x20 => T.tlref.setWidth 64
  | _ => 0

/-- The value of a register of Anvil's block (R463). -/
def anvilValue (a : Anvil) (o : Nat) : Dword :=
  match o with
  | 0x00 => BitVec.ofNat 64 (a.fail * 2 ^ 16 + a.step * 256 + (if a.ready then 1 else 0))
  | 0x10 => BitVec.ofNat 64 a.st
  | 0x80 => a.errbase
  | 0x88 => a.errctl
  | 0x90 => a.errh.setWidth 64
  | 0x98 => a.errt.setWidth 64
  | 0xA0 => a.errlost
  | 0xB0 => BitVec.ofNat 64 (a.pwr.toNat * 2 ^ 32 + clockMhz a)
  | o => if o % 8 != 0 then 0
         else if decide (0x40 ≤ o) && decide (o < 0x60) then get 0 a.nonce ((o - 0x40) / 8)
         else if decide (0x100 ≤ o) && decide (o < 0x140) then
           (a.quar.filter (fun c => c / 64 == (o - 0x100) / 8)).foldl (fun w c => w ||| BitVec.ofNat 64 (2 ^ (c % 64))) 0
         else 0

/-- What a register reads as (R7). -/
def regValue (s : State) (b : Block) (o : Nat) : Dword :=
  match b with
  | .tx t full => txValue (s.tenant t) full o
  | .queue q => queueValue (s.queue q) o
  | .ldest _ => 0
  | .trap t => match o with | 0 => (s.tenant t).thbase | 8 => (s.tenant t).thctl | _ => 0
  | .debug t _ => debugValue s t o
  | .link => linkValue s.link o
  | .tlink t => tlinkValue (s.tenant t) o
  | .inbound n => match o with | 0 => get 0 s.link.dwb n | 8 => get 0 s.link.dwl n | _ => 0
  | .anvil => anvilValue s.anvil o

/-- Whether an access through a BAR is one that R502 admits. -/
def hostAccess (off size : Nat) : Bool := (size == 8 || size == 4) && off % size == 0

/-- What a host read of BAR0 returns (R502). -/
def hostRead (s : State) (fn off size : Nat) : Dword :=
  if !hostAccess off size then 0
  else match blockAt s fn (off / 8 * 8) with
    | none => 0
    | some (b, o) =>
      let v := regValue s b o
      if size == 8 then v else (v >>> (off % 8 * 8)) &&& 0xFFFFFFFF

/-- What a host's read of BAR0 gives: nothing from a device that is absent, as PCIe is not trained (R462). -/
def bar0Read (s : State) (fn off size : Nat) : Option Dword := if hostUp s then some (hostRead s fn off size) else none

/-! ## Writes -/

/-- Whether a register's fields are all W1C or WO (R7). -/
def clearsOrStarts (b : Block) (o : Nat) : Bool :=
  match b with
  | .tx _ _ => [0x028, 0x030, 0x040].contains o
  | .queue _ => [0x10, 0x20, 0x28].contains o
  | .ldest _ => true
  | .debug _ _ => o == 0
  | .tlink _ => o == 0x20
  | .anvil => o == 0x08
  | _ => false

/-- Whether only an 8-byte write starts a register's action (R502). -/
def wholeOnly (b : Block) (o : Nat) : Bool :=
  match b with
  | .tx _ _ => o == 0x028 || o == 0x030
  | .ldest _ => true
  | .debug _ _ => o == 0
  | .anvil => o == 0x08
  | _ => false

/-- A write of a window register (R26). -/
def writeWindow (T : Tenant) (o : Nat) (v : Dword) : Tenant :=
  let n := (o - 0x100) / 16
  if o % 16 == 0 then { T with txwb := put 0 T.txwb n (v &&& 0x000FFFFFFFFF0003) }
  else if o % 16 == 8 then { T with txwl := put 0 T.txwl n (v &&& 0x000FFFFFFFFF0000) } else T

/-- A write of a translation block (R24 to R26, R32, R37). -/
def writeTx (s : State) (t : Nat) (full : Bool) (o : Nat) (v : Dword) : State :=
  match o with
  | 0x000 => if full then writeTxctl s t v else s
  | 0x008 => if full then s.onTenant t (fun T => { T with txroot := v &&& 0x000FFFFFFFFFC000 }) else s
  | 0x010 => s.onTenant t (fun T => { T with txfrb := v &&& 0x000FFFFFFFFFFFE0 })
  | 0x020 => writeTxfrt s t v
  | 0x028 => match entryOf s t (v.setWidth 32) with
    | none => s
    | some e => if v.getLsbD 32 then rejectEntry s t e else acceptEntry s t e
  | 0x030 => writeTxinv s t v
  | 0x038 => s.onTenant t (fun T => { T with txinvn := v.setWidth 32 })
  | 0x040 => if v.getLsbD 1 then s.onTenant t (fun T => { T with lost := false }) else s
  | o => if full && decide (0x100 ≤ o) && decide (o < 0x200) then s.onTenant t (fun T => writeWindow T o v) else s

/-- A write of a queue's block (R218 to R221, R229). -/
def writeQueue (s : State) (q o : Nat) (v : Dword) : State :=
  match o with
  | 0x00 => s.onQueue q (fun Q => if Q.en then Q else { Q with qbase := v &&& 0x0FFFFFFFFFFFF000 })
  | 0x08 => writeQctl s q v
  | 0x10 => writeQtail s q v
  | 0x20 => writeTokens s q false v
  | 0x28 => writeTokens s q true v
  | 0x38 => timelineIrq (s.onQueue q (fun Q => { Q with irqt := v })) q
  | 0x40 => writeQirqc s q v
  | _ => s

/-- A write of a debug block (R439, R449). -/
def writeDebug (s : State) (t : Nat) (pf : Bool) (o : Nat) (v : Dword) : State :=
  match o with
  | 0x00 => writeDbgcmd s t v
  | 0x08 => s.onTenant t (fun T => { T with dbgdata := v })
  | 0x80 => s.onTenant t (fun T => { T with trbase := v &&& 0x0FFFFFFFFFFFFFC0 })
  | 0x88 => writeTrctl s t v
  | 0x98 => s.onTenant t (fun T => { T with trt := v.setWidth 32 })
  | 0x100 => if pf then writeDbgr s t (v.getLsbD 0) else s
  | o => if decide (0x20 ≤ o) && decide (o < 0x40) && o % 8 == 0 then
      s.onTenant t (fun T => { T with dbgbp := put 0 T.dbgbp ((o - 0x20) / 8) (v &&& 0xE3FFFF0000000FFF) }) else s

/-- A write of the link block (R451). -/
def writeLink (s : State) (o : Nat) (v : Dword) : State :=
  if o == 0 then writePkgctl s v
  else if decide (0x100 ≤ o) && decide (o < 0x180) && o % 8 == 0 then
    { s with link := { s.link with dommap := put 0 s.link.dommap ((o - 0x100) / 8) v } }
  else s

/-- A write of a tenant's link registers (R452). -/
def writeTlink (s : State) (t o : Nat) (v : Dword) : State :=
  let off := !(s.tenant t).txctl.getLsbD 0
  match o with
  | 0x00 => writeTlbind s t v
  | 0x08 => if off then s.onTenant t (fun T => { T with tlroa := v &&& 0x000FFFFFFFFFF000 }) else s
  | 0x10 => if off then s.onTenant t (fun T => { T with tlros := v.setWidth 32 }) else s
  | 0x18 => s.onTenant t (fun T => { T with tldkey := v.setWidth 16 })
  | 0x20 => s.onTenant t (fun T => { T with tlref := T.tlref &&& ~~~(v.setWidth 32) })
  | _ => s

/-- A write of an inbound window (R456). -/
def writeInbound (s : State) (n o : Nat) (v : Dword) : State :=
  match o with
  | 0 => { s with link := { s.link with dwb := put 0 s.link.dwb n (v &&& 0xFFFF00FFFFFF0003) } }
  | 8 => { s with link := { s.link with dwl := put 0 s.link.dwl n (v &&& 0x000000FFFFFF0000) } }
  | _ => s

/-- A write of Anvil's block (R463). -/
def writeAnvil (s : State) (o : Nat) (v : Dword) : State :=
  match o with
  | 0x08 => writeAvcmd s v
  | 0x80 => s.onAnvil (fun a => { a with errbase := v &&& 0x000FFFFFFFFFFFE0 })
  | 0x88 => writeErrctl s v
  | 0x98 => s.onAnvil (fun a => { a with errt := v.setWidth 32 })
  | o => if decide (0x40 ≤ o) && decide (o < 0x60) && o % 8 == 0 then
      s.onAnvil (fun a => { a with nonce := put 0 a.nonce ((o - 0x40) / 8) v }) else s

/-- A write of a whole register. -/
def regWrite (s : State) (b : Block) (o : Nat) (v : Dword) : State :=
  match b with
  | .tx t full => writeTx s t full o v
  | .queue q => writeQueue s q o v
  | .ldest fn => writeLdest s fn v
  | .trap t => match o with
    | 0 => s.onTenant t (fun T => { T with thbase := v &&& 0x0FFFFFFFFFFFFFFC })
    | 8 => s.onTenant t (fun T => { T with thctl := v &&& 0x1FFFF })
    | _ => s
  | .debug t pf => writeDebug s t pf o v
  | .link => writeLink s o v
  | .tlink t => writeTlink s t o v
  | .inbound n => writeInbound s n o v
  | .anvil => writeAnvil s o v

/-- The value that a 4-byte write of one half stands for (R502). -/
def mergedHalf (s : State) (b : Block) (o : Nat) (high : Bool) (v : Dword) : Dword :=
  let keep : Dword := if clearsOrStarts b o then 0 else regValue s b o
  let w := v &&& 0xFFFFFFFF
  if high then (keep &&& 0xFFFFFFFF) ||| (w <<< 32) else (keep &&& 0xFFFFFFFF00000000) ||| w

/-- Whether a 4-byte write changes nothing: an action that needs 8 bytes, or the reserved half of a doorbell (R502). -/
def halfIgnored (b : Block) (o : Nat) (high : Bool) : Bool :=
  wholeOnly b o || (match b with | .queue _ => o == 0x10 && high | _ => false)

/-- A host write through BAR0 (R502). -/
def hostWrite (s : State) (fn off size : Nat) (v : Dword) : State :=
  if !hostAccess off size then s
  else match blockAt s fn (off / 8 * 8) with
    | none => s
    | some (b, o) =>
      if size == 8 then regWrite s b o v
      else if halfIgnored b o (off % 8 == 4) then s
      else regWrite s b o (mergedHalf s b o (off % 8 == 4) v)

/-! ## BAR4: the MSI-X table and the pending bits (R450, R453)

As PCIe lays them out, the table first and the pending-bit array in the upper half of the BAR (assumption 72). -/

/-- Bytes of a function's BAR4. -/
def bar4Size (fn : Nat) : Nat := if fn == 0 then 65536 else 16384

/-- The 4 bytes of BAR4 at an offset. -/
def bar4Word (s : State) (fn off : Nat) : Word :=
  if off < 16 * msixSize fn then
    let e := msixEntry s fn (off / 16)
    match off % 16 / 4 with
    | 0 => e.addr.setWidth 32
    | 1 => (e.addr >>> 32).setWidth 32
    | 2 => e.data
    | _ => e.ctl
  else
    let i := 8 * (off - bar4Size fn / 2)
    if off < bar4Size fn / 2 || msixSize fn ≤ i then 0
    else (s.msixPend.filter (fun p => p.1 == fn && decide (i ≤ p.2) && decide (p.2 < i + 32))).foldl
      (fun w p => w ||| BitVec.ofNat 32 (2 ^ (p.2 - i))) 0

/-- What a host read of BAR4 returns. -/
def bar4Read (s : State) (fn off size : Nat) : Dword :=
  if !hostAccess off size then 0
  else if size == 4 then (bar4Word s fn off).setWidth 64
  else (bar4Word s fn off).setWidth 64 ||| ((bar4Word s fn (off + 4)).setWidth 64 <<< 32)

/-- A pending message goes out once its vector is not masked (R453). -/
def sendPending (s : State) (fn vec : Nat) : State :=
  if s.msixPend.contains (fn, vec) && !vecMasked s fn vec then
    postMessage { s with msixPend := s.msixPend.filter (· != (fn, vec)) } fn vec
  else s

/-- 4 bytes of a function's MSI-X table written; the pending bits are read-only. -/
def bar4WriteWord (fn : Nat) (s : State) (off : Nat) (v : Word) : State :=
  let vec := off / 16
  if 32 < fn || msixSize fn ≤ vec then s
  else
    let e := msixEntry s fn vec
    let e : MsixEntry := match off % 16 / 4 with
      | 0 => { e with addr := (e.addr &&& 0xFFFFFFFF00000000) ||| (v &&& 0xFFFFFFFC).setWidth 64 }
      | 1 => { e with addr := (e.addr &&& 0xFFFFFFFF) ||| (v.setWidth 64 <<< 32) }
      | 2 => { e with data := v }
      | _ => { e with ctl := v &&& 1 }
    sendPending { s with msix := put {} s.msix (2048 * fn + vec) e } fn vec

/-- A host write of BAR4 (R450). -/
def bar4Write (s : State) (fn off size : Nat) (v : Dword) : State :=
  if !hostAccess off size then s
  else if size == 4 then bar4WriteWord fn s off (v.setWidth 32)
  else bar4WriteWord fn (bar4WriteWord fn s off (v.setWidth 32)) (off + 4) ((v >>> 32).setWidth 32)

/-- REGISTER_WRITE (R7, R24, R26, R502). -/
def execRegisterWrite (fn off size : Nat) (v : Dword) (s : State) : Out := .next (hostWrite s fn off size v)

end Sys2Proof.Machine
end

