-- ==== Sys2Proof/Machine/LaneInt.lean ====
section
/-! DEFINITION. The lane instructions on integers and bits, the movements between lanes, and the exports (R319 to R342). -/

namespace Sys2Proof.Machine

/-! ## Elements -/

/-- An exact result brought into an element: its low bits, or clamped to the type's range (R324). -/
def fitElem (ty : Nat) (sat : Bool) (x : Int) : Nat :=
  let w := tyBits ty
  let lo : Int := if tySigned ty then -(2 ^ (w - 1) : Nat) else 0
  let hi : Int := if tySigned ty then ((2 ^ (w - 1) : Nat) : Int) - 1 else ((2 ^ w : Nat) : Int) - 1
  if sat then lowBits (max lo (min hi x)) w else lowBits x w

/-- MOD[0], SAT (R321). -/
def laneSat (w : LaneWord) : Bool := w.md.getLsbD 0

/-- A two-source form on the element values (R322). -/
def elems2 (ty : Nat) (sat : Bool) (f : Int → Int → Int) (a b : Word) : Word :=
  mapElems ty (fun i => fitElem ty sat (f (elemInt ty a.toNat i) (elemInt ty b.toNat i)))

/-- A one-source form on the element values. -/
def elems1 (ty : Nat) (sat : Bool) (f : Int → Int) (a : Word) : Word :=
  mapElems ty (fun i => fitElem ty sat (f (elemInt ty a.toNat i)))

/-- A three-source form on the element values (R323). -/
def elems3 (ty : Nat) (sat : Bool) (f : Int → Int → Int → Int) (a b c : Word) : Word :=
  mapElems ty (fun i => fitElem ty sat (f (elemInt ty a.toNat i) (elemInt ty b.toNat i) (elemInt ty c.toNat i)))

/-- The high half of a product (R322). -/
def mulHigh (ty : Nat) (a b : Int) : Int := a * b / (2 ^ tyBits ty : Nat)

/-- A form on element bit patterns: width, element of A, element of B. -/
def bits2 (ty : Nat) (f : Nat → Nat → Nat → Nat) (a b : Word) : Word :=
  mapElems ty (fun i => f (tyBits ty) (elem (tyBits ty) a.toNat i) (elem (tyBits ty) b.toNat i))

/-- A form on one element bit pattern. -/
def bits1 (ty : Nat) (f : Nat → Nat → Nat) (a : Word) : Word :=
  mapElems ty (fun i => f (tyBits ty) (elem (tyBits ty) a.toNat i))

/-- VSHL (R328). -/
def shlElem (ty : Nat) (sat : Bool) (a b : Word) : Word :=
  mapElems ty (fun i => fitElem ty sat
    (elemInt ty a.toNat i * (2 ^ (elem (tyBits ty) b.toNat i % tyBits ty) : Nat)))

/-- The number of 1 bits, of leading and of trailing zeros of an element (R329). -/
def onesOf (w x : Nat) : Nat := ((List.range w).filter (bitOf x)).length
def leadingOf (w x : Nat) : Nat := if x % 2 ^ w = 0 then w else w - 1 - Nat.log2 (x % 2 ^ w)
def trailingOf (w x : Nat) : Nat := ((List.range w).find? (bitOf x)).getD w

/-- VBFE (R330). -/
def laneExtract (ty : Nat) (a b : Word) : Word :=
  let len := min (bitsOf b.toNat 10 5) 32
  let f := a.toNat / 2 ^ (b.toNat % 32) % 2 ^ len
  if ty == 1 && len != 0 then BitVec.ofInt 32 (sext f len) else BitVec.ofNat 32 f

/-- VBFI (R330). -/
def laneInsert (a b c : Word) : Word :=
  let pos := b.toNat % 32
  let len := min (bitsOf b.toNat 10 5) 32
  let m := BitVec.ofNat 32 ((2 ^ len - 1) * 2 ^ pos)
  (c &&& ~~~m) ||| (BitVec.ofNat 32 (a.toNat * 2 ^ pos) &&& m)

/-- COND of VCMP (R321, R331). -/
def condInt (cond : Nat) (a b : Int) : Bool :=
  match cond with
  | 0 => a == b
  | 1 => a != b
  | 2 => decide (a < b)
  | 3 => decide (b ≤ a)
  | 4 => decide (a ≤ b)
  | _ => decide (b < a)

/-- VCMP (R331). -/
def cmpElems (ty cond : Nat) (a b : Word) : Word :=
  mapElems ty (fun i => if condInt cond (elemInt ty a.toNat i) (elemInt ty b.toNat i) then 2 ^ tyBits ty - 1 else 0)

/-- VSEL (R332). -/
def selElems (ty : Nat) (a b c : Word) : Word :=
  let w := tyBits ty
  mapElems ty (fun i => if elem w c.toNat i != 0 then elem w a.toNat i else elem w b.toNat i)

/-- VBOOL (R327). -/
def boolBits (lut : Nat) (a b c : Word) : Word :=
  BitVec.ofNat 32 (packElems 1 ((List.range 32).map (fun j =>
    let n := fun (x : Word) => if x.getLsbD j then 1 else 0
    lut / 2 ^ (n a + 2 * n b + 4 * n c) % 2)))

/-- VDOT4 (R325). -/
def dot4 (ty : Nat) (bu sat : Bool) (a b c : Word) : Word :=
  let accTy := if ty == 9 && bu then 2 else 1
  let s := (List.range 4).foldl (fun s i =>
    s + elemInt ty a.toNat i * elemInt (if bu then 9 else 8) b.toNat i) (elemInt accTy c.toNat 0)
  BitVec.ofNat 32 (fitElem accTy sat s)

/-! ## Movement between lanes (R334) -/

/-- A word that takes A from lane σ of each lane, and C where that lane is not active. -/
def issueMove (s : State) (op : Nat) (w : LaneWord) (σ : LCtx → Nat → Option Nat) : Out :=
  issueInt s op w (fun k l => match σ k l with
    | some j => if k.active j then k.a j else k.c l
    | none => k.c l)

/-- The source lane of VSHIFT without ROT. -/
def shiftFrom (dn : Bool) (l n : Nat) : Option Nat :=
  if dn then (if l + n < 32 then some (l + n) else none) else (if n ≤ l then some (l - n) else none)

/-- Results written to D in those active lanes that have one. -/
def writeSome (s : State) (k : LCtx) (f : Nat → Option Word) : State :=
  s.onCohort k.x.c (fun co => k.act.foldl (fun co l => match f l with
    | some v => co.setV k.w.d.toNat l v
    | none => co) co)

/-- The lowest active lane. -/
def LCtx.first (k : LCtx) : Nat := k.act.headD 0

/-! ## Reductions and scans (R336, R339) -/

/-- RED on one element, with the flags of a float step (R321, R336). -/
def redElem (k : LCtx) (x y : Nat) : Nat × Sticky :=
  let ty := k.w.tyn
  let w := tyBits ty
  if tyFloat.contains ty then
    match k.w.red with
    | 0 => fadd (tyFmt ty) k.rmode k.ftz x y
    | r => fminmax (tyFmt ty) k.ftz (r == 2) x y
  else
    let less := decide (elemInt ty x 0 ≤ elemInt ty y 0)
    match k.w.red with
    | 0 => ((x + y) % 2 ^ w, 0)
    | 1 => (if less then x else y, 0)
    | 2 => (if less then y else x, 0)
    | 3 => (x &&& y, 0)
    | 4 => (x ||| y, 0)
    | _ => (x ^^^ y, 0)

/-- RED on a word, element by element. -/
def redWord (k : LCtx) (x y : Nat) : Nat × Sticky :=
  mapFlags k.w.tyn (fun i => redElem k (elem (tyBits k.w.tyn) x i) (elem (tyBits k.w.tyn) y i))

/-- A word as a reduction or scan reads it: under FTZ a subnormal float element is a zero (R250, R336). -/
def redWordIn (k : LCtx) (v : Word) : Nat :=
  if tyFloat.contains k.w.tyn then
    packElems (tyBits k.w.tyn) ((List.range (tyCount k.w.tyn)).map (fun i =>
      flushBits (tyFmt k.w.tyn) k.ftz (elem (tyBits k.w.tyn) v.toNat i)))
  else v.toNat

/-- A as a reduction reads it. -/
def redSource (k : LCtx) (l : Nat) : Nat := redWordIn k (k.a l)

/-- One level of the tree of R257. -/
def treeLevel (k : LCtx) : List (Option (Nat × Sticky)) → List (Option (Nat × Sticky))
  | some x :: some y :: r =>
    let z := redWord k x.1 y.1
    some (z.1, x.2 ||| y.2 ||| z.2) :: treeLevel k r
  | some x :: none :: r => some x :: treeLevel k r
  | none :: y :: r => y :: treeLevel k r
  | l => l

/-- The tree of R257 over the active lanes. -/
def redTree (k : LCtx) : Nat × Sticky :=
  let leaves := lanes32.map (fun l => if k.active l then some (redSource k l, (0 : Sticky)) else none)
  match treeLevel k (treeLevel k (treeLevel k (treeLevel k (treeLevel k leaves)))) with
  | some r :: _ => r
  | _ => (0, 0)

/-- The running reduction over lanes in ascending order: lane, result, and the flags of the steps (R258, R336). -/
def scanFrom (k : LCtx) : List Nat → Nat → List (Nat × Nat × Sticky)
  | [], _ => []
  | l :: r, acc =>
    let z := redWord k acc (redSource k l)
    (l, z.1, z.2) :: scanFrom k r z.1

/-- The inclusive scan: lane, result, flags. -/
def scanIncl (k : LCtx) (ls : List Nat) : List (Nat × Nat × Sticky) :=
  match ls with
  | [] => []
  | l :: r => (l, redSource k l, 0) :: scanFrom k r (redSource k l)

/-- The exclusive scan: the first lane takes C, an operand that FTZ acts on; each other the result of the lane before it. -/
def scanExcl (k : LCtx) (ls : List Nat) : List (Nat × Nat × Sticky) :=
  match ls with
  | [] => []
  | l :: r => (l, redWordIn k (k.c l), 0) :: (r.zip (scanIncl k (ls.take (ls.length - 1)))).map (fun p => (p.1, p.2.2))

/-! ## Exports (R337) -/

/-- An export issues: its values are on their way to their scalar registers. -/
def exportVals (s : State) (k : LCtx) (vals : List (Nat × Word)) : State :=
  s.onCohort k.x.c (fun co =>
    { co with exports := co.exports ++ vals.map (fun v => ⟨v.1, v.2, k.blk.marks.contains (k.blk.next, v.1), s.fresh⟩),
              laneQ := match co.laneQ with
                | [] => []
                | b :: r => { b with marks := vals.foldl (fun m v => m.erase (k.blk.next, v.1)) b.marks } :: r })

/-- The scalar register of an export: D[5:0]. -/
def laneSd (w : LaneWord) : Nat := w.d.toNat % 64

/-- The ballot of VVOTE (R338). -/
def ballot (k : LCtx) : Word :=
  BitVec.ofNat 32 (packElems 1 (lanes32.map (fun l =>
    if k.active l && ((k.a l == 0) == k.w.md.getLsbD 2) then 1 else 0)))

/-- What VVOTE exports (R338). -/
def voteResult (k : LCtx) : Word :=
  let b := ballot k
  match k.w.mdn % 4 with
  | 0 => b
  | 1 => if b != 0 then 1 else 0
  | 2 => if b == k.blk.mask then 1 else 0
  | _ => BitVec.ofNat 32 (onesOf 32 b.toNat)

/-- What VXS exports (R340). -/
def laneToScalar (k : LCtx) : List (Nat × Word) :=
  let l := if k.w.md.getLsbD 0 then k.first else (k.b 0).toNat % 32
  let on := k.active l
  if k.w.md.getLsbD 1 then
    let v := if on then k.src64 k.w.a l else 0
    [(laneSd k.w, v.setWidth 32), (laneSd k.w + 1, (v >>> 32).setWidth 32)]
  else [(laneSd k.w, if on then k.a l else 0)]

/-- The lanes whose A equals a lane's (R335). -/
def matchMask (k : LCtx) (l : Nat) : Word :=
  BitVec.ofNat 32 (packElems 1 (lanes32.map (fun j =>
    if k.active j && (if k.w.md.getLsbD 0 then k.src64 k.w.a j == k.src64 k.w.a l else k.a j == k.a l) then 1 else 0)))

/-! ## Meanings -/

/-- VNOP (R333). -/
def execVnop (w : LaneWord) (s : State) : Out := issueL s 0x00 w (fun s _ => .done s)
/-- VADD (R322). -/
def execVadd (w : LaneWord) (s : State) : Out := issueInt s 0x01 w (fun k l => elems2 w.tyn false (· + ·) (k.a l) (k.b l))
/-- VSUB (R322). -/
def execVsub (w : LaneWord) (s : State) : Out := issueInt s 0x02 w (fun k l => elems2 w.tyn false (· - ·) (k.a l) (k.b l))
/-- VMUL (R322, R324). -/
def execVmul (w : LaneWord) (s : State) : Out := issueInt s 0x03 w (fun k l => elems2 w.tyn (laneSat w) (· * ·) (k.a l) (k.b l))
/-- VMULH (R322). -/
def execVmulh (w : LaneWord) (s : State) : Out :=
  issueInt s 0x04 w (fun k l => elems2 w.tyn false (mulHigh w.tyn) (k.a l) (k.b l))
/-- VMAD (R323). -/
def execVmad (w : LaneWord) (s : State) : Out :=
  issueInt s 0x05 w (fun k l => elems3 w.tyn (laneSat w) (fun a b c => a * b + c) (k.a l) (k.b l) (k.c l))
/-- VAND (R327). -/
def execVand (w : LaneWord) (s : State) : Out := issueInt s 0x06 w (fun k l => k.a l &&& k.b l)
/-- VOR (R327). -/
def execVor (w : LaneWord) (s : State) : Out := issueInt s 0x07 w (fun k l => k.a l ||| k.b l)
/-- VXOR (R327). -/
def execVxor (w : LaneWord) (s : State) : Out := issueInt s 0x08 w (fun k l => k.a l ^^^ k.b l)
/-- VANDN (R327). -/
def execVandn (w : LaneWord) (s : State) : Out := issueInt s 0x09 w (fun k l => k.a l &&& ~~~(k.b l))
/-- VSHL (R328). -/
def execVshl (w : LaneWord) (s : State) : Out := issueInt s 0x0A w (fun k l => shlElem w.tyn (laneSat w) (k.a l) (k.b l))
/-- VSHR (R328). -/
def execVshr (w : LaneWord) (s : State) : Out :=
  issueInt s 0x0B w (fun k l => bits2 w.tyn (fun n a b => a / 2 ^ (b % n)) (k.a l) (k.b l))
/-- VSRA (R328). -/
def execVsra (w : LaneWord) (s : State) : Out :=
  issueInt s 0x0C w (fun k l => bits2 w.tyn (fun n a b => lowBits (sext a n / (2 ^ (b % n) : Nat)) n) (k.a l) (k.b l))
/-- VMIN (R322). -/
def execVmin (w : LaneWord) (s : State) : Out := issueInt s 0x0D w (fun k l => elems2 w.tyn false min (k.a l) (k.b l))
/-- VMAX (R322). -/
def execVmax (w : LaneWord) (s : State) : Out := issueInt s 0x0E w (fun k l => elems2 w.tyn false max (k.a l) (k.b l))
/-- VABS (R326). -/
def execVabs (w : LaneWord) (s : State) : Out := issueInt s 0x0F w (fun k l => elems1 w.tyn (laneSat w) (fun a => a.natAbs) (k.a l))
/-- VNEG (R326). -/
def execVneg (w : LaneWord) (s : State) : Out := issueInt s 0x10 w (fun k l => elems1 w.tyn (laneSat w) (fun a => -a) (k.a l))
/-- VCMP (R331). -/
def execVcmp (w : LaneWord) (s : State) : Out := issueInt s 0x11 w (fun k l => cmpElems w.tyn w.rsel (k.a l) (k.b l))
/-- VSEL (R332). -/
def execVsel (w : LaneWord) (s : State) : Out := issueInt s 0x12 w (fun k l => selElems w.tyn (k.a l) (k.b l) (k.c l))
/-- VPOPC (R329). -/
def execVpopc (w : LaneWord) (s : State) : Out := issueInt s 0x13 w (fun k l => bits1 w.tyn onesOf (k.a l))
/-- VCLZ (R329). -/
def execVclz (w : LaneWord) (s : State) : Out := issueInt s 0x14 w (fun k l => bits1 w.tyn leadingOf (k.a l))
/-- VCTZ (R329). -/
def execVctz (w : LaneWord) (s : State) : Out := issueInt s 0x15 w (fun k l => bits1 w.tyn trailingOf (k.a l))
/-- VBFE (R330). -/
def execVbfe (w : LaneWord) (s : State) : Out := issueInt s 0x16 w (fun k l => laneExtract w.tyn (k.a l) (k.b l))
/-- VBFI (R330). -/
def execVbfi (w : LaneWord) (s : State) : Out := issueInt s 0x17 w (fun k l => laneInsert (k.a l) (k.b l) (k.c l))
/-- VADDSAT (R322, R324). -/
def execVaddsat (w : LaneWord) (s : State) : Out := issueInt s 0x18 w (fun k l => elems2 w.tyn true (· + ·) (k.a l) (k.b l))
/-- VSUBSAT (R322, R324). -/
def execVsubsat (w : LaneWord) (s : State) : Out := issueInt s 0x19 w (fun k l => elems2 w.tyn true (· - ·) (k.a l) (k.b l))
/-- VDOT4 (R325). -/
def execVdot4 (w : LaneWord) (s : State) : Out :=
  issueInt s 0x1A w (fun k l => dot4 w.tyn (w.md.getLsbD 1) (laneSat w) (k.a l) (k.b l) (k.c l))
/-- VBOOL (R327). -/
def execVbool (w : LaneWord) (s : State) : Out := issueInt s 0x1B w (fun k l => boolBits (w.mdn % 256) (k.a l) (k.b l) (k.c l))
/-- VSHUF (R334). -/
def execVshuf (w : LaneWord) (s : State) : Out := issueMove s 0x60 w (fun k l => some ((k.b l).toNat % 32))
/-- VSHUFX (R334). -/
def execVshufx (w : LaneWord) (s : State) : Out := issueMove s 0x61 w (fun k l => some (l ^^^ ((k.b l).toNat % 32)))
/-- VSHIFT (R334): with ROT a lane whose source is not active keeps D. -/
def execVshift (w : LaneWord) (s : State) : Out :=
  if w.md.getLsbD 1 then
    issueL s 0x62 w (fun s k => .done (writeSome s k (fun l =>
      let n := (k.b l).toNat % 32
      let j := if w.md.getLsbD 0 then (l + n) % 32 else (l + 32 - n) % 32
      if k.active j then some (k.a j) else none)))
  else issueMove s 0x62 w (fun k l => shiftFrom (w.md.getLsbD 0) l ((k.b l).toNat % 32))
/-- The sources that give every lane one value: a window register, IMM, the cohort index, zero (R334). -/
def uniformSource (c : Nat) : Bool := (decide (256 ≤ c) && decide (c ≤ 272)) || c == 274 || c == 275

/-- VBCAST (R334): without FIRST, B is a uniform source. -/
def execVbcast (w : LaneWord) (s : State) : Out :=
  if w.md.getLsbD 0 || uniformSource w.b.toNat then
    issueMove s 0x63 w (fun k l => some (if w.md.getLsbD 0 then k.first else (k.b l).toNat % 32))
  else issueL s 0x63 w (fun s _ => .fault s { code := 1 })
/-- VVOTE (R338). -/
def execVvote (w : LaneWord) (s : State) : Out :=
  issueL s 0x64 w (fun s k => .done (exportVals s k [(laneSd w, voteResult k)]))
/-- VREDX (R339). -/
def execVredx (w : LaneWord) (s : State) : Out :=
  issueL s 0x65 w (fun s k =>
    let r := redTree k
    withFlags s k r.2 (fun s => exportVals s k [(laneSd w, BitVec.ofNat 32 r.1)]))
/-- VSCAN (R336). -/
def execVscan (w : LaneWord) (s : State) : Out :=
  issueL s 0x66 w (fun s k =>
    let rs := if w.md.getLsbD 7 then scanExcl k k.act else scanIncl k k.act
    withFlags s k (rs.foldl (fun fl r => fl ||| r.2.2) 0) (fun s =>
      writeD s k (fun l => match rs.find? (fun r => r.1 == l) with | some r => BitVec.ofNat 32 r.2.1 | none => 0)))
/-- VXS (R340): without FIRST, B is a uniform source, coded as for VBCAST. -/
def execVxs (w : LaneWord) (s : State) : Out :=
  issueL s 0x67 w (fun s k =>
    if w.md.getLsbD 0 || uniformSource w.b.toNat then .done (exportVals s k (laneToScalar k)) else .fault s { code := 1 })
/-- VMATCH (R335). -/
def execVmatch (w : LaneWord) (s : State) : Out := issueInt s 0x68 w (fun k l => matchMask k l)

end Sys2Proof.Machine
end

