-- ==== Sys2Proof/Machine/LaneFloat.lean ====
section
/-! DEFINITION. The lane instructions on floats, the conversions, and the MX blocks (R343 to R362). -/

namespace Sys2Proof.Machine

/-! ## Element-wise forms (R346 to R352) -/

/-- Element i of a source word under TY. -/
def LCtx.el (k : LCtx) (x : Word) (i : Nat) : Nat := elem (tyBits k.w.tyn) x.toNat i
/-- The format of TY. -/
def LCtx.fmt (k : LCtx) : Fmt := tyFmt k.w.tyn

/-- A form of one source (R350, R351). -/
def issueF1 (s : State) (op : Nat) (w : LaneWord) (f : Fmt → Nat → Bool → Nat → Nat × Sticky) : Out :=
  issueFp s op w (fun k l => mapFlags w.tyn (fun i => f k.fmt k.rmode k.ftz (k.el (k.a l) i)))

/-- A form of two sources (R346). -/
def issueF2 (s : State) (op : Nat) (w : LaneWord) (f : Fmt → Nat → Bool → Nat → Nat → Nat × Sticky) : Out :=
  issueFp s op w (fun k l => mapFlags w.tyn (fun i => f k.fmt k.rmode k.ftz (k.el (k.a l) i) (k.el (k.b l) i)))

/-- VFCMP on one element (R348). -/
def cmpElem (k : LCtx) (a b : Nat) : Nat × Sticky :=
  let r := fcmp k.fmt k.ftz k.w.rsel a b
  (if r.1 then 2 ^ tyBits k.w.tyn - 1 else 0, r.2)

/-! ## VCVT (R353 to R355) -/

/-- Whether a type is a float type. -/
def tyIsFloat (ty : Nat) : Bool := [3, 4, 5, 10, 11].contains ty
/-- Whether a type is an 8-bit float. -/
def tyIsF8 (ty : Nat) : Bool := ty == 10 || ty == 11

/-- The source element of a destination element (R354). -/
def cvtSource (k : LCtx) (lane j : Nat) : Nat :=
  let ns := tyCount k.w.src
  let nd := tyCount k.w.tyn
  let wd := tyBits k.w.src
  if ns < nd then elem wd (k.x.co.vreg (k.w.a.toNat + j / ns) lane).toNat (j % ns)
  else elem wd (k.a lane).toNat (k.w.part * nd + j)

/-- Whether FTZ acts on the operand of a conversion (R250, R355). -/
def cvtFlush (k : LCtx) : Bool :=
  k.ftz && tyFloat.contains k.w.src && !tyIsF8 k.w.tyn && k.w.rsel != 5

/-- The value of a source element of VCVT. -/
def cvtValue (k : LCtx) (x : Nat) : FV :=
  if tyIsFloat k.w.src then unpackZ (tyFmt k.w.src) (cvtFlush k) x
  else intFV (if tySigned k.w.src then sext x (tyBits k.w.src) else (x : Int))

/-- One element converted (R355). A conversion from an 8-bit float is widening and exact: FTZ does not act on its result (assumption
64). -/
def cvtElem (k : LCtx) (lane j : Nat) : Nat × Sticky :=
  let v := cvtValue k (cvtSource k lane j)
  let sat := k.w.md.getLsbD 9
  if !tyIsFloat k.w.tyn then toInt (tyBits k.w.tyn) (tySigned k.w.tyn) k.rmode v
  else if k.w.rsel == 5 then
    let nb := tyBits k.w.tyn
    sround (tyFmt k.w.tyn) sat v (elem nb (k.c lane).toNat j) nb
  else roundFV (tyFmt k.w.tyn) k.rmode sat (k.ftz && !tyIsF8 k.w.tyn && !tyIsF8 k.w.src) v

/-! ## VPACK and VUNPK (R356 to R358) -/

/-- The field width of a FW code. -/
def fieldWidth (fw : Nat) : Nat := 4 * 2 ^ fw

/-- Input value j of VPACK and its width. -/
def packInput (k : LCtx) (lane j : Nat) : Nat × Nat :=
  let r := fun i => (k.x.co.vreg (k.w.a.toNat + i) lane).toNat
  if k.w.mdn % 4 == 0 then (elem 8 (r (j / 4)) (j % 4), 8) else (r j, 32)

/-- Field j of VPACK (R357). -/
def packField (k : LCtx) (lane j : Nat) : Nat :=
  let fw := fieldWidth (k.w.mdn % 4)
  let v := packInput k lane j
  let x := sext v.1 v.2
  match k.w.mdn / 4 % 4 with
  | 0 => v.1 % 2 ^ fw
  | 1 => lowBits (max (-(2 ^ (fw - 1) : Nat)) (min (((2 ^ (fw - 1) : Nat) : Int) - 1) x)) fw
  | _ => lowBits (max 0 (min (((2 ^ fw : Nat) : Int) - 1) x)) fw

/-- VPACK in a lane. -/
def packLane (k : LCtx) (lane : Nat) : Word :=
  let fw := fieldWidth (k.w.mdn % 4)
  BitVec.ofNat 32 (packElems fw ((List.range (32 / fw)).map (packField k lane)))

/-- VUNPK in a lane (R358). -/
def unpackLane (k : LCtx) (lane : Nat) : Word :=
  let fw := fieldWidth (k.w.mdn % 4)
  let f := elem fw (k.a lane).toNat (k.w.mdn / 8)
  if k.w.md.getLsbD 2 then BitVec.ofInt 32 (sext f fw) else BitVec.ofNat 32 f

/-! ## MX blocks (R359 to R361) -/

/-- The element format of an EF code. -/
def mxFmt (ef : Nat) : Fmt := match ef with | 0 => e4m3 | 1 => e5m2 | 2 => e3m2 | _ => e2m1
/-- EMAX of an EF code (R360). -/
def mxEmax (ef : Nat) : Int := match ef with | 0 => 8 | 1 => 15 | 2 => 4 | _ => 2
/-- The bits that an element takes in lane form. -/
def mxBits (ef : Nat) : Nat := if ef == 3 then 4 else 8
/-- The scale lane. -/
def mxScaleLane (ef : Nat) : Nat := if ef == 3 then 4 else 8
/-- EF of a word. -/
def LCtx.ef (k : LCtx) : Nat := k.w.mdn / 16 % 4

/-- The elements of the block in A, +0 from inactive lanes. -/
def mxElems (k : LCtx) : List FV :=
  lanes32.map (fun l => if k.active l then unpackZ f32 k.ftz (k.a l).toNat else .fin false 0 0)

/-- The exponent of the largest finite magnitude, none when it is zero. -/
def mxTop (vs : List FV) : Option Int :=
  vs.foldl (fun acc v => match v with
    | .fin _ m e => if m == 0 then acc else match acc with
      | some t => some (max t (topExp m e))
      | none => some (topExp m e)
    | _ => acc) none

/-- One element quantised (R360): a finite quotient beyond the format raises IX and not OF. -/
def mxQuant (ef mode : Nat) (e : Int) (v : FV) : Nat × Sticky :=
  match v with
  | .fin n m x =>
    let r := roundTo (mxFmt ef) mode true false n m (x - e) false
    (r.1, r.2 &&& ~~~flOF)
  | v => roundFV (mxFmt ef) mode true false v

/-- VMXQ: the 32 element codes, the scale code and the flags. -/
def mxQuantise (k : LCtx) : List Nat × Nat × Sticky :=
  let vs := mxElems k
  if vs.any isNan then (List.replicate 32 0, 0xFF, if vs.any isSig then flIV else 0)
  else
    let e : Int := match mxTop vs with
      | some t => max (-127) (min 127 (t - mxEmax k.ef))
      | none => -127
    let qs := vs.map (mxQuant k.ef k.rmode e)
    (qs.map (·.1), (e + 127).toNat, qs.foldl (fun fl q => fl ||| q.2) 0)

/-- A lane of the lane form (R359). -/
def mxLane (ef : Nat) (codes : List Nat) (scale lane : Nat) : Word :=
  let n := 32 / mxBits ef
  if lane < mxScaleLane ef then BitVec.ofNat 32 (packElems (mxBits ef) ((codes.drop (n * lane)).take n))
  else if lane == mxScaleLane ef then BitVec.ofNat 32 scale
  else 0

/-- Element i of a block in lane form in A, and its scale code. -/
def mxRead (k : LCtx) (i : Nat) : Nat × Nat :=
  let n := 32 / mxBits k.ef
  let at_ := fun l => if k.active l then (k.a l).toNat else 0
  (elem (mxBits k.ef) (at_ (i / n)) (i % n), at_ (mxScaleLane k.ef) % 256)

/-- VMXD in a lane (R361). -/
def mxRestore (k : LCtx) (i : Nat) : Nat × Sticky :=
  let (code, scale) := mxRead k i
  if scale == 0xFF then (f32.nanBits, flIV)
  else
    let v := match unpackF (mxFmt k.ef) (code % 2 ^ (mxFmt k.ef).width) with
      | .fin n m e => .fin n m (e + (scale : Int) - 127)
      | v => v
    roundFV f32 k.rmode false k.ftz v

/-! ## Meanings -/

/-- VFADD (R346). -/
def execVfadd (w : LaneWord) (s : State) : Out := issueF2 s 0x30 w fadd
/-- VFSUB (R346). -/
def execVfsub (w : LaneWord) (s : State) : Out := issueF2 s 0x31 w fsub
/-- VFMUL (R346). -/
def execVfmul (w : LaneWord) (s : State) : Out := issueF2 s 0x32 w fmul
/-- VFMA (R346). -/
def execVfma (w : LaneWord) (s : State) : Out :=
  issueFp s 0x33 w (fun k l => mapFlags w.tyn (fun i =>
    ffma k.fmt k.rmode k.ftz (k.el (k.a l) i) (k.el (k.b l) i) (k.el (k.c l) i)))
/-- VFMIN (R347). -/
def execVfmin (w : LaneWord) (s : State) : Out := issueF2 s 0x34 w (fun f _ z => fminmax f z false)
/-- VFMAX (R347). -/
def execVfmax (w : LaneWord) (s : State) : Out := issueF2 s 0x35 w (fun f _ z => fminmax f z true)
/-- VFCMP (R348). -/
def execVfcmp (w : LaneWord) (s : State) : Out :=
  issueFp s 0x36 w (fun k l => mapFlags w.tyn (fun i => cmpElem k (k.el (k.a l) i) (k.el (k.b l) i)))
/-- VFCLASS (R349). -/
def execVfclass (w : LaneWord) (s : State) : Out :=
  issueInt s 0x37 w (fun k l => mapElems w.tyn (fun i => fclass k.fmt (k.el (k.a l) i)))
/-- VRCP (R255, R350). -/
def execVrcp (w : LaneWord) (s : State) : Out := issueF1 s 0x38 w frcp
/-- VRSQ (R255, R350). -/
def execVrsq (w : LaneWord) (s : State) : Out := issueF1 s 0x39 w frsq
/-- VSQRT (R255, R350). -/
def execVsqrt (w : LaneWord) (s : State) : Out := issueF1 s 0x3A w fsqrt
/-- VEXP2 (R255, R350). -/
def execVexp2 (w : LaneWord) (s : State) : Out := issueF1 s 0x3B w fexp2
/-- VLOG2 (R255, R350). -/
def execVlog2 (w : LaneWord) (s : State) : Out := issueF1 s 0x3C w flog2
/-- VCVT (R353 to R355). -/
def execVcvt (w : LaneWord) (s : State) : Out :=
  issueFp s 0x3D w (fun k l => mapFlags w.tyn (fun j => cvtElem k l j))
/-- VFRND (R351). -/
def execVfrnd (w : LaneWord) (s : State) : Out := issueF1 s 0x3E w ffrnd
/-- VSCALE (R352). -/
def execVscale (w : LaneWord) (s : State) : Out :=
  issueFp s 0x3F w (fun k l => mapFlags w.tyn (fun i =>
    fscale k.fmt k.rmode k.ftz (k.el (k.a l) i) (sext (k.el (k.b l) i) (tyBits w.tyn))))
/-- VPACK (R357). -/
def execVpack (w : LaneWord) (s : State) : Out := issueInt s 0x40 w packLane
/-- VUNPK (R358). -/
def execVunpk (w : LaneWord) (s : State) : Out := issueInt s 0x41 w unpackLane
/-- VMXQ (R360). -/
def execVmxq (w : LaneWord) (s : State) : Out :=
  issueL s 0x42 w (fun s k =>
    let q := mxQuantise k
    withFlags s k q.2.2 (fun s => writeD s k (mxLane k.ef q.1 q.2.1)))
/-- VMXD (R361). -/
def execVmxd (w : LaneWord) (s : State) : Out := issueFp s 0x43 w mxRestore

end Sys2Proof.Machine
end

