-- ==== Sys2Proof/Machine/Dispatch.lean ====
section
/-! DEFINITION. The meaning of every instruction and event: one arm for each constructor of `Instr`. -/

namespace Sys2Proof.Machine

/-- The dispatch. -/
def exec (i : Instr) (s : State) : Host.Outcome State Fault Refusal :=
  match i with
  | .nop => Sys2Proof.Machine.execNop s
  | .done => Sys2Proof.Machine.execDone s
  | .tret => Sys2Proof.Machine.execTret s
  | .yield => Sys2Proof.Machine.execYield s
  | .fence scope kind => Sys2Proof.Machine.execFence scope kind s
  | .getr d ix => Sys2Proof.Machine.execGetr d ix s
  | .setr a ix => Sys2Proof.Machine.execSetr a ix s
  | .lwait => Sys2Proof.Machine.execLwait s
  | .add d a b => Sys2Proof.Machine.execAdd d a b s
  | .sub d a b => Sys2Proof.Machine.execSub d a b s
  | .mul d a b => Sys2Proof.Machine.execMul d a b s
  | .mulhI32 d a b => Sys2Proof.Machine.execMulhI32 d a b s
  | .mulhN32 d a b => Sys2Proof.Machine.execMulhN32 d a b s
  | .and d a b => Sys2Proof.Machine.execAnd d a b s
  | .or d a b => Sys2Proof.Machine.execOr d a b s
  | .xor d a b => Sys2Proof.Machine.execXor d a b s
  | .andn d a b => Sys2Proof.Machine.execAndn d a b s
  | .shl d a b => Sys2Proof.Machine.execShl d a b s
  | .shr d a b => Sys2Proof.Machine.execShr d a b s
  | .sra d a b => Sys2Proof.Machine.execSra d a b s
  | .minI32 d a b => Sys2Proof.Machine.execMinI32 d a b s
  | .minN32 d a b => Sys2Proof.Machine.execMinN32 d a b s
  | .maxI32 d a b => Sys2Proof.Machine.execMaxI32 d a b s
  | .maxN32 d a b => Sys2Proof.Machine.execMaxN32 d a b s
  | .sltI32 d a b => Sys2Proof.Machine.execSltI32 d a b s
  | .sltN32 d a b => Sys2Proof.Machine.execSltN32 d a b s
  | .seq d a b => Sys2Proof.Machine.execSeq d a b s
  | .sel d a b => Sys2Proof.Machine.execSel d a b s
  | .popc d a => Sys2Proof.Machine.execPopc d a s
  | .clz d a => Sys2Proof.Machine.execClz d a s
  | .ctz d a => Sys2Proof.Machine.execCtz d a s
  | .bfe d a b => Sys2Proof.Machine.execBfe d a b s
  | .add64 d a b => Sys2Proof.Machine.execAdd64 d a b s
  | .sub64 d a b => Sys2Proof.Machine.execSub64 d a b s
  | .addi d a imm => Sys2Proof.Machine.execAddi d a imm s
  | .andi d a imm => Sys2Proof.Machine.execAndi d a imm s
  | .ori d a imm => Sys2Proof.Machine.execOri d a imm s
  | .xori d a imm => Sys2Proof.Machine.execXori d a imm s
  | .shli d a sh => Sys2Proof.Machine.execShli d a sh s
  | .shri d a sh => Sys2Proof.Machine.execShri d a sh s
  | .srai d a sh => Sys2Proof.Machine.execSrai d a sh s
  | .slti d a imm => Sys2Proof.Machine.execSlti d a imm s
  | .seqi d a imm => Sys2Proof.Machine.execSeqi d a imm s
  | .muli d a imm => Sys2Proof.Machine.execMuli d a imm s
  | .li d imm => Sys2Proof.Machine.execLi d imm s
  | .lix d ext => Sys2Proof.Machine.execLix d ext s
  | .addix d a ext => Sys2Proof.Machine.execAddix d a ext s
  | .adda d a imm => Sys2Proof.Machine.execAdda d a imm s
  | .ldB32 d a imm => Sys2Proof.Machine.execLdB32 d a imm s
  | .ldB64 d a imm => Sys2Proof.Machine.execLdB64 d a imm s
  | .ldN8 d a imm => Sys2Proof.Machine.execLdN8 d a imm s
  | .ldI8 d a imm => Sys2Proof.Machine.execLdI8 d a imm s
  | .ldN16 d a imm => Sys2Proof.Machine.execLdN16 d a imm s
  | .ldI16 d a imm => Sys2Proof.Machine.execLdI16 d a imm s
  | .stB32 d a imm => Sys2Proof.Machine.execStB32 d a imm s
  | .stB64 d a imm => Sys2Proof.Machine.execStB64 d a imm s
  | .stB8 d a imm => Sys2Proof.Machine.execStB8 d a imm s
  | .stB16 d a imm => Sys2Proof.Machine.execStB16 d a imm s
  | .atom d a b w64 code => Sys2Proof.Machine.execAtom d a b w64 code s
  | .ldsp d a b minor => Sys2Proof.Machine.execLdsp d a b minor s
  | .stsp d a b minor => Sys2Proof.Machine.execStsp d a b minor s
  | .ldo d a scope w64 kind => Sys2Proof.Machine.execLdo d a scope w64 kind s
  | .sto d a scope w64 kind => Sys2Proof.Machine.execSto d a scope w64 kind s
  | .br off => Sys2Proof.Machine.execBr off s
  | .call off => Sys2Proof.Machine.execCall off s
  | .ret => Sys2Proof.Machine.execRet s
  | .jr a => Sys2Proof.Machine.execJr a s
  | .beq a b off => Sys2Proof.Machine.execBeq a b off s
  | .bne a b off => Sys2Proof.Machine.execBne a b off s
  | .bltI32 a b off => Sys2Proof.Machine.execBltI32 a b off s
  | .bgeI32 a b off => Sys2Proof.Machine.execBgeI32 a b off s
  | .bltN32 a b off => Sys2Proof.Machine.execBltN32 a b off s
  | .bgeN32 a b off => Sys2Proof.Machine.execBgeN32 a b off s
  | .bz a off => Sys2Proof.Machine.execBz a off s
  | .bnz a off => Sys2Proof.Machine.execBnz a off s
  | .loop k c off => Sys2Proof.Machine.execLoop k c off s
  | .loopx k => Sys2Proof.Machine.execLoopx k s
  | .btab d a list => Sys2Proof.Machine.execBtab d a list s
  | .trap a code => Sys2Proof.Machine.execTrap a code s
  | .lane a len index => Sys2Proof.Machine.execLane a len index s
  | .spawn d a b scope => Sys2Proof.Machine.execSpawn d a b scope s
  | .barInit d a b => Sys2Proof.Machine.execBarInit d a b s
  | .barArrive d a scope => Sys2Proof.Machine.execBarArrive d a scope s
  | .barExpect d a b => Sys2Proof.Machine.execBarExpect d a b s
  | .barDrop d a scope => Sys2Proof.Machine.execBarDrop d a scope s
  | .barWait d a b => Sys2Proof.Machine.execBarWait d a b s
  | .barTest d a b => Sys2Proof.Machine.execBarTest d a b s
  | .safe n => Sys2Proof.Machine.execSafe n s
  | .enter id => Sys2Proof.Machine.execEnter id s
  | .leave => Sys2Proof.Machine.execLeave s
  | .mma d a b ext => Sys2Proof.Machine.execMma d a b ext s
  | .mmas d a b ext => Sys2Proof.Machine.execMmas d a b ext s
  | .mres d a b at3 mb => Sys2Proof.Machine.execMres d a b at3 mb s
  | .mcommit d => Sys2Proof.Machine.execMcommit d s
  | .mwait a => Sys2Proof.Machine.execMwait a s
  | .mfence => Sys2Proof.Machine.execMfence s
  | .mresume => Sys2Proof.Machine.execMresume s
  | .mstat d item => Sys2Proof.Machine.execMstat d item s
  | .vnop w => Sys2Proof.Machine.execVnop w s
  | .vadd w => Sys2Proof.Machine.execVadd w s
  | .vsub w => Sys2Proof.Machine.execVsub w s
  | .vmul w => Sys2Proof.Machine.execVmul w s
  | .vmulh w => Sys2Proof.Machine.execVmulh w s
  | .vmad w => Sys2Proof.Machine.execVmad w s
  | .vand w => Sys2Proof.Machine.execVand w s
  | .vor w => Sys2Proof.Machine.execVor w s
  | .vxor w => Sys2Proof.Machine.execVxor w s
  | .vandn w => Sys2Proof.Machine.execVandn w s
  | .vshl w => Sys2Proof.Machine.execVshl w s
  | .vshr w => Sys2Proof.Machine.execVshr w s
  | .vsra w => Sys2Proof.Machine.execVsra w s
  | .vmin w => Sys2Proof.Machine.execVmin w s
  | .vmax w => Sys2Proof.Machine.execVmax w s
  | .vabs w => Sys2Proof.Machine.execVabs w s
  | .vneg w => Sys2Proof.Machine.execVneg w s
  | .vcmp w => Sys2Proof.Machine.execVcmp w s
  | .vsel w => Sys2Proof.Machine.execVsel w s
  | .vpopc w => Sys2Proof.Machine.execVpopc w s
  | .vclz w => Sys2Proof.Machine.execVclz w s
  | .vctz w => Sys2Proof.Machine.execVctz w s
  | .vbfe w => Sys2Proof.Machine.execVbfe w s
  | .vbfi w => Sys2Proof.Machine.execVbfi w s
  | .vaddsat w => Sys2Proof.Machine.execVaddsat w s
  | .vsubsat w => Sys2Proof.Machine.execVsubsat w s
  | .vdot4 w => Sys2Proof.Machine.execVdot4 w s
  | .vbool w => Sys2Proof.Machine.execVbool w s
  | .vfadd w => Sys2Proof.Machine.execVfadd w s
  | .vfsub w => Sys2Proof.Machine.execVfsub w s
  | .vfmul w => Sys2Proof.Machine.execVfmul w s
  | .vfma w => Sys2Proof.Machine.execVfma w s
  | .vfmin w => Sys2Proof.Machine.execVfmin w s
  | .vfmax w => Sys2Proof.Machine.execVfmax w s
  | .vfcmp w => Sys2Proof.Machine.execVfcmp w s
  | .vfclass w => Sys2Proof.Machine.execVfclass w s
  | .vrcp w => Sys2Proof.Machine.execVrcp w s
  | .vrsq w => Sys2Proof.Machine.execVrsq w s
  | .vsqrt w => Sys2Proof.Machine.execVsqrt w s
  | .vexp2 w => Sys2Proof.Machine.execVexp2 w s
  | .vlog2 w => Sys2Proof.Machine.execVlog2 w s
  | .vcvt w => Sys2Proof.Machine.execVcvt w s
  | .vfrnd w => Sys2Proof.Machine.execVfrnd w s
  | .vscale w => Sys2Proof.Machine.execVscale w s
  | .vpack w => Sys2Proof.Machine.execVpack w s
  | .vunpk w => Sys2Proof.Machine.execVunpk w s
  | .vmxq w => Sys2Proof.Machine.execVmxq w s
  | .vmxd w => Sys2Proof.Machine.execVmxd w s
  | .vshuf w => Sys2Proof.Machine.execVshuf w s
  | .vshufx w => Sys2Proof.Machine.execVshufx w s
  | .vshift w => Sys2Proof.Machine.execVshift w s
  | .vbcast w => Sys2Proof.Machine.execVbcast w s
  | .vvote w => Sys2Proof.Machine.execVvote w s
  | .vredx w => Sys2Proof.Machine.execVredx w s
  | .vscan w => Sys2Proof.Machine.execVscan w s
  | .vxs w => Sys2Proof.Machine.execVxs w s
  | .vmatch w => Sys2Proof.Machine.execVmatch w s
  | .vld w => Sys2Proof.Machine.execVld w s
  | .vst w => Sys2Proof.Machine.execVst w s
  | .vatom w => Sys2Proof.Machine.execVatom w s
  | .vred w => Sys2Proof.Machine.execVred w s
  | .vredo w => Sys2Proof.Machine.execVredo w s
  | .vldf w => Sys2Proof.Machine.execVldf w s
  | .vstf w => Sys2Proof.Machine.execVstf w s
  | .vspawn w => Sys2Proof.Machine.execVspawn w s
  | .vldt w => Sys2Proof.Machine.execVldt w s
  | .vldb w => Sys2Proof.Machine.execVldb w s
  | .vstb w => Sys2Proof.Machine.execVstb w s
  | .vpref w => Sys2Proof.Machine.execVpref w s
  | .exportWrite c => Sys2Proof.Machine.execExportWrite c s
  | .loadReturn c k reply => Sys2Proof.Machine.execLoadReturn c k reply s
  | .vldfAnswer c k => Sys2Proof.Machine.execVldfAnswer c k s
  | .cohortWake c => Sys2Proof.Machine.execCohortWake c s
  | .starvationLift c lane => Sys2Proof.Machine.execStarvationLift c lane s
  | .riscvInstruction op short => Sys2Proof.Machine.execRiscvInstruction op short s
  | .ecall => Sys2Proof.Machine.execEcall s
  | .tld rd rs1 => Sys2Proof.Machine.execTld rd rs1 s
  | .tldt rd rs1 => Sys2Proof.Machine.execTldt rd rs1 s
  | .tlds rd rs1 => Sys2Proof.Machine.execTlds rd rs1 s
  | .tgath rd rs1 => Sys2Proof.Machine.execTgath rd rs1 s
  | .tst rd rs1 => Sys2Proof.Machine.execTst rd rs1 s
  | .tcopy rd rs1 => Sys2Proof.Machine.execTcopy rd rs1 s
  | .tbarArrive rd rs1 => Sys2Proof.Machine.execTbarArrive rd rs1 s
  | .tbarExpect rd rs1 rs2 => Sys2Proof.Machine.execTbarExpect rd rs1 rs2 s
  | .tbarWait rd rs1 rs2 => Sys2Proof.Machine.execTbarWait rd rs1 rs2 s
  | .tbarTest rd rs1 rs2 => Sys2Proof.Machine.execTbarTest rd rs1 rs2 s
  | .twait rd rs1 => Sys2Proof.Machine.execTwait rd rs1 s
  | .tfence => Sys2Proof.Machine.execTfence s
  | .tstat rd rs1 => Sys2Proof.Machine.execTstat rd rs1 s
  | .tres rd rs1 => Sys2Proof.Machine.execTres rd rs1 s
  | .tkill rd rs1 => Sys2Proof.Machine.execTkill rd rs1 s
  | .tileCommandStart g st slot => Sys2Proof.Machine.execTileCommandStart g st slot s
  | .tileRowComplete g st slot row lost => Sys2Proof.Machine.execTileRowComplete g st slot row lost s
  | .tileCommandComplete g st slot => Sys2Proof.Machine.execTileCommandComplete g st slot s
  | .tileCommandStop g st slot refused => Sys2Proof.Machine.execTileCommandStop g st slot refused s
  | .matrixStep core => Sys2Proof.Machine.execMatrixStep core s
  | .engineWaitGrant core k => Sys2Proof.Machine.execEngineWaitGrant core k s
  | .matrixOpFinish core => Sys2Proof.Machine.execMatrixOpFinish core s
  | .batchComplete c => Sys2Proof.Machine.execBatchComplete c s
  | .pageWalk core t va kind => Sys2Proof.Machine.execPageWalk core t va kind s
  | .faultRingPost t k => Sys2Proof.Machine.execFaultRingPost t k s
  | .txctlWrite t v => Sys2Proof.Machine.execTxctlWrite t v s
  | .txfrtWrite t v => Sys2Proof.Machine.execTxfrtWrite t v s
  | .txfresAccept t seq => Sys2Proof.Machine.execTxfresAccept t seq s
  | .txfresReject t seq => Sys2Proof.Machine.execTxfresReject t seq s
  | .txinvAll t => Sys2Proof.Machine.execTxinvAll t s
  | .txinvRange t page => Sys2Proof.Machine.execTxinvRange t page s
  | .txinvNone t kind => Sys2Proof.Machine.execTxinvNone t kind s
  | .invalidationComplete t => Sys2Proof.Machine.execInvalidationComplete t s
  | .homeSliceWrite core k => Sys2Proof.Machine.execHomeSliceWrite core k s
  | .sliceAtomic core k => Sys2Proof.Machine.execSliceAtomic core k s
  | .reductionApply core k => Sys2Proof.Machine.execReductionApply core k s
  | .futureRequest core k => Sys2Proof.Machine.execFutureRequest core k s
  | .vredoEntry core k => Sys2Proof.Machine.execVredoEntry core k s
  | .orderedFlush slice slot => Sys2Proof.Machine.execOrderedFlush slice slot s
  | .l1dLineExpiry core k => Sys2Proof.Machine.execL1dLineExpiry core k s
  | .patrolScrub => Sys2Proof.Machine.execPatrolScrub s
  | .storageSweep => Sys2Proof.Machine.execStorageSweep s
  | .errorDetect e => Sys2Proof.Machine.execErrorDetect e s
  | .errorRecordPost => Sys2Proof.Machine.execErrorRecordPost s
  | .doorbell q v => Sys2Proof.Machine.execDoorbell q v s
  | .queueEnable q v => Sys2Proof.Machine.execQueueEnable q v s
  | .queueDisable q v => Sys2Proof.Machine.execQueueDisable q v s
  | .queueRestart q v => Sys2Proof.Machine.execQueueRestart q v s
  | .qtokClear q v => Sys2Proof.Machine.execQtokClear q v s
  | .qtoksSet q v => Sys2Proof.Machine.execQtoksSet q v s
  | .qirqcArm q v => Sys2Proof.Machine.execQirqcArm q v s
  | .packetFetch q => Sys2Proof.Machine.execPacketFetch q s
  | .packetRefetch q => Sys2Proof.Machine.execPacketRefetch q s
  | .nopPacket q n => Sys2Proof.Machine.execNopPacket q n s
  | .graph q n => Sys2Proof.Machine.execGraph q n s
  | .graphCreate q n => Sys2Proof.Machine.execGraphCreate q n s
  | .copy q n => Sys2Proof.Machine.execCopy q n s
  | .signal q n => Sys2Proof.Machine.execSignal q n s
  | .wait q n => Sys2Proof.Machine.execWait q n s
  | .withdraw q n => Sys2Proof.Machine.execWithdraw q n s
  | .vacate q n => Sys2Proof.Machine.execVacate q n s
  | .vacateReturn q n => Sys2Proof.Machine.execVacateReturn q n s
  | .capstart q n => Sys2Proof.Machine.execCapstart q n s
  | .capstop q n => Sys2Proof.Machine.execCapstop q n s
  | .redflush q n => Sys2Proof.Machine.execRedflush q n s
  | .packetComplete q n => Sys2Proof.Machine.execPacketComplete q n s
  | .launchDestroy fn v => Sys2Proof.Machine.execLaunchDestroy fn v s
  | .recordArrival die k => Sys2Proof.Machine.execRecordArrival die k s
  | .spawnerWake die k => Sys2Proof.Machine.execSpawnerWake die k s
  | .packTimerExpiry die k => Sys2Proof.Machine.execPackTimerExpiry die k s
  | .groupFormTimer die k => Sys2Proof.Machine.execGroupFormTimer die k s
  | .launchCandidate die => Sys2Proof.Machine.execLaunchCandidate die s
  | .recordPageSpill die => Sys2Proof.Machine.execRecordPageSpill die s
  | .recordPageReadback die => Sys2Proof.Machine.execRecordPageReadback die s
  | .gangWaitExpiry die k => Sys2Proof.Machine.execGangWaitExpiry die k s
  | .gangClosure die k => Sys2Proof.Machine.execGangClosure die k s
  | .groupEviction die g => Sys2Proof.Machine.execGroupEviction die g s
  | .fDead slot => Sys2Proof.Machine.execFDead slot s
  | .launchComplete slot => Sys2Proof.Machine.execLaunchComplete slot s
  | .launchFaultEnd slot => Sys2Proof.Machine.execLaunchFaultEnd slot s
  | .trapEntry c => Sys2Proof.Machine.execTrapEntry c s
  | .groupSave g => Sys2Proof.Machine.execGroupSave g s
  | .groupResume die k => Sys2Proof.Machine.execGroupResume die k s
  | .traceSample core => Sys2Proof.Machine.execTraceSample core s
  | .traceEnable t v => Sys2Proof.Machine.execTraceEnable t v s
  | .dbgcmdRead t v => Sys2Proof.Machine.execDbgcmdRead t v s
  | .dbgcmdWrite t v => Sys2Proof.Machine.execDbgcmdWrite t v s
  | .dbgcmdResume t v => Sys2Proof.Machine.execDbgcmdResume t v s
  | .dbgcmdHalt t v => Sys2Proof.Machine.execDbgcmdHalt t v s
  | .dbgrClear t => Sys2Proof.Machine.execDbgrClear t s
  | .moduleReset => Sys2Proof.Machine.execModuleReset s
  | .bringupStep => Sys2Proof.Machine.execBringupStep s
  | .attest v => Sys2Proof.Machine.execAttest v s
  | .attestComplete => Sys2Proof.Machine.execAttestComplete s
  | .errorRingEnable v => Sys2Proof.Machine.execErrorRingEnable v s
  | .watchdogExpiry fw => Sys2Proof.Machine.execWatchdogExpiry fw s
  | .coreQuarantine core => Sys2Proof.Machine.execCoreQuarantine core s
  | .linkRetrain port => Sys2Proof.Machine.execLinkRetrain port s
  | .clockThrottle up => Sys2Proof.Machine.execClockThrottle up s
  | .powerLoss => Sys2Proof.Machine.execPowerLoss s
  | .hostBar2Access off len data => Sys2Proof.Machine.execHostBar2Access off len data s
  | .systemAccessCompletion c k err => Sys2Proof.Machine.execSystemAccessCompletion c k err s
  | .remoteAccessArrival a => Sys2Proof.Machine.execRemoteAccessArrival a s
  | .remoteTimeout core k => Sys2Proof.Machine.execRemoteTimeout core k s
  | .portFailure port => Sys2Proof.Machine.execPortFailure port s
  | .remoteCreditReturn pkg k cause => Sys2Proof.Machine.execRemoteCreditReturn pkg k cause s
  | .pkgctlWrite v => Sys2Proof.Machine.execPkgctlWrite v s
  | .tlbindWrite t v => Sys2Proof.Machine.execTlbindWrite t v s
  | .registerWrite fn off size v => Sys2Proof.Machine.execRegisterWrite fn off size v s
  | .dieResetEnd die => Sys2Proof.Machine.execDieResetEnd die s
  | .linkRetrainEnd port => Sys2Proof.Machine.execLinkRetrainEnd port s
  | .firmwareCoreSignal fw => Sys2Proof.Machine.execFirmwareCoreSignal fw s
  | .remoteWriteAcknowledgement core k refused => Sys2Proof.Machine.execRemoteWriteAcknowledgement core k refused s
  | .dbgcmdBadCommand t v => Sys2Proof.Machine.execDbgcmdBadCommand t v s
  | .powerMeasurement watts => Sys2Proof.Machine.execPowerMeasurement watts s

end Sys2Proof.Machine
end

