-- ==== Sys2Proof/Machine/Arbiter.lean ====
section
/-! DEFINITION. The schedulers: which cohort issues next on each stream, how long an issue holds its slot, and what one clk counts
(R3, R184 to R187). -/

namespace Sys2Proof.Machine

/-- A fetched instruction executed. -/
def runFetched (f : Fetched) : Host.Outcome State Fault Refusal :=
  match f with
  | .stop s => .next s
  | .run s i => exec i s

/-- What trying the next word of a cohort's scalar or lane stream gives. -/
def tried (s : State) (c : Nat) (lane : Bool) : Host.Outcome State Fault Refusal :=
  runFetched (if lane then fetchLane s c else fetchScalar s c)

/-- Whether the stream acted: a word that stalls leaves its cohort as it was. -/
def acted (s t : State) (c : Nat) : Bool := lookup t.cohorts c != lookup s.cohorts c

/-- Whether a cohort's stream is ready (R184): its next word can issue, or trap, without a stall. A trap handler entered in this clk
issues from the next one on. -/
def streamReady (s : State) (c : Nat) (lane : Bool) : Bool :=
  match lookup s.cohorts c with
  | none => false
  | some co => co.trapAt != some s.clk && (match tried s c lane with | .next t => acted s t c | _ => true)

/-- The issue slot of a cohort's scheduler for a stream. -/
def slotOf (s : State) (x : Ctx) (lane : Bool) : IssueSlot :=
  get {} (s.core x.core).slots (2 * x.co.sched + (if lane then 1 else 0))

/-- Where a cohort stands among those of its scheduler (R185): handlers, then lifted cohorts, each oldest first, then class 3 down to
0 by age; among equals, round robin by cohort slot. -/
def rankKey (s : State) (x : Ctx) (lane : Bool) : List Nat :=
  let rr := (x.co.cslot + 15 - (slotOf s x lane).last) % 16
  if x.co.handler then [0, 0, x.co.age, rr]
  else if (if lane then x.co.liftL else x.co.liftS) then [1, 0, x.co.age, rr]
  else [2, 3 - x.node.class_, x.co.age, rr]

/-- The lexical order of keys. -/
def keyBefore : List Nat → List Nat → Bool
  | a :: r, b :: q => decide (a < b) || (a == b && keyBefore r q)
  | _, _ => false

/-- Whether a ready cohort of the same scheduler comes before a cohort (R185). -/
def outranked (s : State) (x : Ctx) (lane : Bool) : Bool :=
  s.cohorts.any (fun p => p.1 != x.c && (match ctxOf s p.1 with
    | none => false
    | some y => y.core == x.core && y.co.sched == x.co.sched && keyBefore (rankKey s y lane) (rankKey s x lane) &&
        streamReady s p.1 lane))

/-- Whether a cohort's stream may try its next word: its scheduler's slot is free in this clk, and no ready cohort comes before it
(R184, R185). -/
def streamTurn (s : State) (c : Nat) (lane : Bool) : Bool :=
  match ctxOf s c with
  | none => true
  | some x => decide ((slotOf s x lane).free ≤ s.clk) && x.co.trapAt != some s.clk && !outranked s x lane

/-- The clk for which a cohort's next lane word holds the lane slot (R44, R184). -/
def wordClks (s : State) (x : Ctx) : Nat :=
  match x.co.laneQ with
  | [] => 1
  | blk :: _ => match decodeLane (nextLaneWord s x blk).2 with
    | .error _ => 1
    | .ok i => match laneParts i with
      | none => 1
      | some p => readCycles s x p.1 p.2

/-- The slot taken by a stream that acted. -/
def tookSlot (s t : State) (c : Nat) (lane : Bool) : State :=
  match ctxOf s c with
  | none => t
  | some x =>
    if !acted s t c then t
    else
      let k := 2 * x.co.sched + (if lane then 1 else 0)
      let v : IssueSlot := ⟨x.co.cslot, some s.clk, s.clk + (if lane then wordClks s x else 1)⟩
      t.onCore x.core (fun C => { C with slots := put {} C.slots k v })

/-- One try of a cohort's stream by its scheduler. -/
def issueStream (s : State) (c : Nat) (lane : Bool) : Host.Outcome State Fault Refusal :=
  if !streamTurn s c lane then .next s
  else match tried s c lane with
    | .next t => .next (tookSlot s t c lane)
    | o => o

/-! ## One clk -/

/-- Whether a cohort's stream was ready in this clk and did not issue (R186). -/
def passedOver (s : State) (c : Nat) (lane : Bool) : Bool :=
  match ctxOf s c with
  | none => false
  | some x =>
    let k := slotOf s x lane
    !(k.at_ == some s.clk && k.last == x.co.cslot) && streamReady s c lane

/-- The starvation counts of a clk (R186). -/
def countWaits (s : State) : State :=
  { s with cohorts := s.cohorts.map (fun p => (p.1,
      { p.2 with waitS := if passedOver s p.1 false then p.2.waitS + 1 else p.2.waitS,
                 waitL := if passedOver s p.1 true then p.2.waitL + 1 else p.2.waitL })) }

/-- Host writes of tokens that came after the starts of the clk before apply, and count as this clk's (R227). -/
def applyLate (s : State) : State :=
  let late := s.queues.any (fun q => !q.2.late.isEmpty)
  { s with queues := s.queues.map (fun q => (q.1, q.2.lateWrites)),
           starts := { s.starts with host := if late then some s.clk else s.starts.host } }

/-- One clk of the whole module: what is due at its end forms, the clocks and the counts advance, and the next clk begins. -/
def clkStep (s : State) : State :=
  if !s.powered then s else settleDbg (applyLate (endDead (trackDead (clkPasses (countWaits (formDue s))))))

end Sys2Proof.Machine
end

