-- ==== Sys2Proof/Machine/Step.lean ====
section
/-! DEFINITION. One step of the module: the move that the agenda names, or one clk. -/

namespace Sys2Proof.Machine

/-- One move of an agent or of the world. -/
def perform (s : State) (m : Move) : Host.Outcome State Fault Refusal :=
  match m with
  | .scalar c => issueStream s c false
  | .lane c => issueStream s c true
  | .rv g st => runFetched (fetchRv s g st)
  | .event i => if eventRuns s i then exec i { s with cur := .none } else .next s
  | .world pa b => .next (worldWrites s pa b)
  | .portError pa on => .next (portErrors s pa on)
  | .evict core => .next (coreEvicts s core)
  | .bar4 fn off size v => .next (if hostUp s then bar4Write s fn off size v else s)
  | .manufacture fl kh mv sec => .next (manufactured s fl kh mv sec)
  | .storeOut core c => .next (storeLeaves s core c)
  | .lineOut line => .next (lineEvicted s line)
  | .chunk g st slot row i => .next (chunkLands s g st slot row i)
  | .powerOn => .next { s with powered := true }
  | .tick => .next (clkStep s)

/-- One step: the next move of the agenda, and a clk where the agenda is empty. -/
def step (s : State) : Host.Outcome State Fault Refusal :=
  match s.agenda with
  | [] => .next (clkStep s)
  | m :: r => perform { s with agenda := r } m

/-- The state in which the next step fetches and runs a table row's instruction. -/
def State.withFetchWord (s : State) (nbits w : Nat) : State := placeWord s nbits w

end Sys2Proof.Machine
end

