-- ==== Sys2Proof/Safety.lean ====
section
/-! DEFINITION. The terms that claims about the machine use: when an agent's instruction issues, and what a step leaves
unchanged. -/

namespace Sys2Proof.Machine

/-! ## When an instruction issues -/

/-- The cohort x.c executes, and x is what the state holds of it. -/
def Runs (s : State) (x : Ctx) : Prop := s.cur = .cohort x.c ∧ ctxOf s x.c = some x

/-- A scalar instruction that uses u issues: its cohort may run (R181), no halt of its loader or storer waits for it (R147),
its registers are produced and without error (R281, R40), the safe gap is open (R316), at a join point its lane queue is empty
(R107) and no result on its way can be an error (R102), and no access before it holds its own back (R102, R114). -/
def scalarReady (x : Ctx) (u : Use) : Bool :=
  x.runnable && !(x.co.ix == 0 && (x.g.loader.due || x.g.storer.due)) && !u.regs.any x.co.busyReg &&
  !u.reads.any x.co.badS.contains && (u.safe || decide (x.co.gap < gapLimit x)) && (!u.join || (x.co.laneIdle && x.co.noErrorComes)) &&
  !x.co.holdsBack u.rd u.wr

/-- A lane word issues: its cohort's lane stream may run, its registers lie below the cohort's count (R42), none is a late
result of the open run (R179), none that it reads holds an error (R40), and no access before it holds its own back (R102, R114). -/
def laneReady (x : Ctx) (blk : LaneBlock) (op : Nat) (w : LaneWord) : Bool :=
  x.laneRunnable && !(laneReads op w ++ laneWrites op w).any (fun r => decide (x.co.nv ≤ r) || x.co.runW.contains r) &&
  !(laneReads op w).any (fun r => (maskLanes blk.mask).any (fun l => x.co.badV.contains (r * 32 + l))) &&
  !x.co.holdsBack (laneAccess op).1 (laneAccess op).2

/-- A lane word of the block that heads the lane queue is what the cohort executes. -/
def LaneRuns (s : State) (k : LCtx) : Prop := Runs s k.x ∧ k.x.co.laneQ.head? = some k.blk

/-- The loader or storer k executes and may run (R148, R415, R445). -/
def RvRuns (s : State) (k : RvCtx) : Prop := s.cur = .rv k.gid k.st ∧ rvOf s k.gid k.st = some k ∧ k.runnable = true

/-! ## What a step leaves unchanged -/

/-- Every byte of memory reads as before. -/
def SameBytes (s t : State) : Prop := ∀ a, readByte t a = readByte s a

/-- No tenant register differs: only what counter captures count (R447). -/
def SameTenants (s t : State) : Prop := ∀ k, t.tenant k = { s.tenant k with caps := (t.tenant k).caps }

/-- The cohort c has become co, and nothing else of the machine differs but what counter captures count: not the memory, no
other cohort, no group, core, slice, die, launch, queue or register of a tenant, of the links or of Anvil. -/
def OnlyCohort (s t : State) (c : Nat) (co : Cohort) : Prop :=
  lookup t.cohorts c = some co ∧ (∀ k, k ≠ c → lookup t.cohorts k = lookup s.cohorts k) ∧ SameBytes s t ∧
  t = { s with cohorts := t.cohorts, tenants := t.tenants } ∧ SameTenants s t

/-- No loop ends at the instruction at a (R302). -/
def noLoopEnd (lp : LoopRegs) (a : Word) : Bool := (lp.lc0 == 0 || lp.le0 != a) && (lp.lc1 == 0 || lp.le1 != a)

/-- Only what is local to a cohort's issue differs: its cohort is now co, its core C and its group g; no other cohort, core or
group differs, no byte of memory, no launch, die, slice, queue or register of a tenant, of the links or of Anvil, but what
counter captures count and how many identities have been drawn. -/
def OnlyLocal (s t : State) (x : Ctx) (co : Cohort) (C : Core) (g : Group) : Prop :=
  lookup t.cohorts x.c = some co ∧ (∀ k, k ≠ x.c → lookup t.cohorts k = lookup s.cohorts k) ∧
  t.core x.core = C ∧ (∀ k, k ≠ x.core → t.core k = s.core k) ∧
  lookup t.groups x.co.grp = some g ∧ (∀ k, k ≠ x.co.grp → lookup t.groups k = lookup s.groups k) ∧ SameBytes s t ∧
  t = { s with cohorts := t.cohorts, cores := t.cores, groups := t.groups, tenants := t.tenants, fresh := t.fresh } ∧
  SameTenants s t

/-- co' is base after its scalar instruction of len words has completed without a taken transfer: SPC has moved past it unless a
loop ends there, the safe gap counts it, and every other register is that of base. -/
def Moved (base co' : Cohort) (len : Nat) : Prop :=
  co' = { base with spc := co'.spc, loops := co'.loops, gap := base.gap + 1, waitS := 0, liftS := false } ∧
  (noLoopEnd base.loops base.spc = true → co'.spc = base.spc + BitVec.ofNat 32 (4 * len) ∧ co'.loops = base.loops)

/-- co' is base after its scalar instruction has transferred control to a: only SPC, the safe gap and the loops have changed,
and the loops are lp. -/
def WentTo (base co' : Cohort) (a : Word) (lp : LoopRegs) : Prop :=
  co' = { base with spc := a, loops := lp, gap := base.gap + 1, waitS := 0, liftS := false }

/-- What a scalar instruction leaves of its cohort when its effect is on scalar registers alone: the registers named hold their
values and every other one is unchanged, SPC has advanced by the instruction's words unless a loop ends there, and every other
register of the cohort (modes, flags, exception registers, vectors, batches, queues) is as before. -/
def WroteRegs (co co' : Cohort) (ws : List (Nat × Word)) (len : Nat) : Prop :=
  (∀ r, co'.reg r = ((ws.find? (fun p => p.1 == r)).map (·.2)).getD (co.reg r)) ∧
  Moved { co with s := co'.s, badS := co'.badS } co' len

end Sys2Proof.Machine
end

