-- ==== Sys2Proof/Certificates/Slice0/Obligations.lean ====
section
/-! DEFINITION. The statements about the model, and the tables of forms that they range over. -/

open Sys2Proof Sys2Proof.Machine

namespace Sys2Proof.Slice0

/-! ## Forms of the scalar stream -/

/-- 1 or 0. -/
def oneIf (b : Bool) : Word := if b then 1 else 0

/-- R292, three registers: what d becomes from a and b. -/
def forms3 : List ((SReg → SReg → SReg → Instr) × (Word → Word → Word)) :=
  [(.add, fun a b => BitVec.ofNat 32 (a.toNat + b.toNat)),
   (.sub, fun a b => BitVec.ofInt 32 ((a.toNat : Int) - b.toNat)),
   (.mul, fun a b => BitVec.ofNat 32 (a.toNat * b.toNat)),
   (.mulhI32, fun a b => BitVec.ofInt 32 (a.toInt * b.toInt / 4294967296)),
   (.mulhN32, fun a b => BitVec.ofNat 32 (a.toNat * b.toNat / 4294967296)),
   (.and, fun a b => a &&& b), (.or, fun a b => a ||| b), (.xor, fun a b => a ^^^ b), (.andn, fun a b => a &&& ~~~b),
   (.shl, fun a b => BitVec.ofNat 32 (a.toNat * 2 ^ (b.toNat % 32))),
   (.shr, fun a b => BitVec.ofNat 32 (a.toNat / 2 ^ (b.toNat % 32))),
   (.sra, fun a b => BitVec.ofInt 32 (a.toInt / (2 ^ (b.toNat % 32) : Nat))),
   (.minI32, fun a b => BitVec.ofInt 32 (min a.toInt b.toInt)),
   (.minN32, fun a b => BitVec.ofNat 32 (min a.toNat b.toNat)),
   (.maxI32, fun a b => BitVec.ofInt 32 (max a.toInt b.toInt)),
   (.maxN32, fun a b => BitVec.ofNat 32 (max a.toNat b.toNat)),
   (.sltI32, fun a b => oneIf (decide (a.toInt < b.toInt))),
   (.sltN32, fun a b => oneIf (decide (a.toNat < b.toNat))),
   (.seq, fun a b => oneIf (decide (a = b))),
   (.bfe, fun a b => BitVec.ofNat 32 (a.toNat / 2 ^ (b.toNat % 32) % 2 ^ min (b.toNat / 32 % 64) 32))]

/-- R292, two registers: what d becomes from a. -/
def forms2 : List ((SReg → SReg → Instr) × (Word → Word)) :=
  [(.popc, fun a => BitVec.ofNat 32 ((List.range 32).filter (fun i => a.getLsbD i)).length),
   (.clz, fun a => BitVec.ofNat 32 ((List.range 32).takeWhile (fun i => !a.getLsbD (31 - i))).length),
   (.ctz, fun a => BitVec.ofNat 32 ((List.range 32).takeWhile (fun i => !a.getLsbD i)).length)]

/-- R293, an immediate of 13 bits: what d becomes from a and i = sext(imm13, 13). -/
def formsImm : List ((SReg → SReg → BitVec 13 → Instr) × (Word → Int → Word)) :=
  [(.addi, fun a i => BitVec.ofInt 32 (a.toInt + i)),
   (.andi, fun a i => a &&& BitVec.ofInt 32 i), (.ori, fun a i => a ||| BitVec.ofInt 32 i), (.xori, fun a i => a ^^^ BitVec.ofInt 32 i),
   (.slti, fun a i => oneIf (decide (a.toInt < i))), (.seqi, fun a i => oneIf (decide (a = BitVec.ofInt 32 i))),
   (.muli, fun a i => BitVec.ofInt 32 (a.toInt * i))]

/-- R293, a shift by imm13[4:0]. -/
def formsShift : List ((SReg → SReg → BitVec 5 → Instr) × (Word → Nat → Word)) :=
  [(.shli, fun a n => BitVec.ofNat 32 (a.toNat * 2 ^ n)), (.shri, fun a n => BitVec.ofNat 32 (a.toNat / 2 ^ n)),
   (.srai, fun a n => BitVec.ofInt 32 (a.toInt / (2 ^ n : Nat)))]

/-- What a register instruction of one destination uses. -/
def useOf (d : SReg) (srcs : List SReg) (len : Nat := 1) : Use :=
  { regs := d.toNat :: srcs.map (·.toNat), reads := srcs.map (·.toNat), len := len }

/-- What an instruction of pairs uses. -/
def usePairs (d : SReg) (srcs : List SReg) : Use :=
  { regs := [d.toNat, d.toNat + 1] ++ srcs.flatMap (fun r => [r.toNat, r.toNat + 1]),
    reads := srcs.flatMap (fun r => [r.toNat, r.toNat + 1]) }

/-- The instruction answers a next state in which registers of its own cohort have changed and nothing else. -/
def WritesRegs (s : State) (x : Ctx) (i : Instr) (ws : List (Nat × Word)) (len : Nat) : Prop :=
  ∃ t co, exec i s = .next t ∧ OnlyCohort s t x.c co ∧ WroteRegs x.co co ws len

/-- A 64-bit value in a pair: the low word in the even register. -/
def inPair (d : SReg) (v : Nat) : List (Nat × Word) :=
  [(d.toNat, BitVec.ofNat 32 v), (d.toNat + 1, BitVec.ofNat 32 (v / 2 ^ 32))]

/-- The number that a pair holds. -/
def pairNat (co : Cohort) (a : SReg) : Nat := (co.reg a.toNat).toNat + 2 ^ 32 * (co.reg (a.toNat + 1)).toNat

/-! ## Scalar accesses -/

/-- The loads of R294: their bytes, and whether they extend the sign. -/
def loadForms : List ((SReg → SReg → BitVec 13 → Instr) × Nat × Bool) :=
  [(.ldB32, 4, false), (.ldB64, 8, false), (.ldN8, 1, false), (.ldI8, 1, true), (.ldN16, 2, false), (.ldI16, 2, true)]

/-- The stores of R294: their bytes. -/
def storeForms : List ((SReg → SReg → BitVec 13 → Instr) × Nat) := [(.stB32, 4), (.stB64, 8), (.stB8, 1), (.stB16, 2)]

/-- LDSP's minors of R296: bytes, and whether the sign is extended. -/
def ldspForms : List (BitVec 7 × Nat × Bool) :=
  [(0, 1, false), (1, 1, true), (2, 2, false), (3, 2, true), (4, 4, false), (5, 8, false)]

/-- A register and the next one. -/
def pairOf (a : SReg) : List Nat := [a.toNat, a.toNat + 1]

/-- The registers of n bytes of data. -/
def dataOf (d : SReg) (n : Nat) : List Nat := if n = 8 then pairOf d else [d.toNat]

/-- The number that the data registers of n bytes hold. -/
def dataNat (co : Cohort) (d : SReg) (n : Nat) : Nat := if n = 8 then pairNat co d else (co.reg d.toNat).toNat

/-- The address of R294: the pair plus the immediate, modulo 2^64. -/
def addrOf (co : Cohort) (a : SReg) (imm : BitVec 13) : Nat := (((pairNat co a : Int) + imm.toInt) % 2 ^ 64).toNat

/-- What a load of n bytes writes, given the number that they hold. -/
def loaded (signed : Bool) (d : SReg) (n v : Nat) : List (Nat × Word) :=
  if n = 8 then inPair d v
  else [(d.toNat, if signed then BitVec.ofInt 32 (Int.bmod v (2 ^ (8 * n))) else BitVec.ofNat 32 v)]

/-- Bytes at pa as the cohort sees them over b: its own stores that are still in its store queue count (R111). -/
def withOwn (s : State) (x : Ctx) (pa : Nat) (b : List Byte) : List Byte :=
  (List.range b.length).map (fun i => (lastStored (queuedBy (s.core x.core) x.c) (pa + i)).getD (b.getD i 0))

/-- The line that the L1D holds for an address and may still serve (R59, R62); none for a read that passes the L1D. -/
def serves (s : State) (x : Ctx) (va : Nat) (xl : Xlat) (n : Nat) : Option L1Line :=
  if xl.mt = 0 ∧ va % 64 + n ≤ 64 then
    (l1Line (s.core x.core) x.t va).filter (fun l => decide (s.clk - l.at_ ≤ Config.l1dClk))
  else none

/-- The bytes of a read that a cohort makes: of a line that the L1D serves (R59, R62), else its core's view of memory, and over
either its own queued stores (R111). -/
def loadSees (s : State) (x : Ctx) (va : Nat) (xl : Xlat) (n : Nat) : List Byte :=
  withOwn s x xl.pa (match serves s x va xl n with
    | some l => (List.range n).map (fun i => l.bytes.getD (va % 64 + i) 0)
    | none => coreRead s x.core xl.pa n)

/-- What translating addresses asks of system space or of another package (R34, R452, R454): the reads of their walks. -/
def seeks (s : State) (x : Ctx) (vas : List Nat) : State := countMisses s x.core x.t vas

/-- What a read asks of system space or of another package (R452, R454): the reads of its walk and, where no line of the L1D serves
it, its line, where the L1D may hold it, else its bytes. -/
def asks (s : State) (x : Ctx) (va : Nat) (xl : Xlat) (n : Nat) : State :=
  if (serves s x va xl n).isSome then seeks s x [va]
  else if xl.mt = 0 ∧ va % 64 + n ≤ 64 then leaves (seeks s x [va]) x.t (xl.pa - va % 64) 64 []
  else leaves (seeks s x [va]) x.t xl.pa n []

/-- The core after that read (R59): a line that serves it stays, a line that does not stand in the L1D is filled into it, and a read
that passes the L1D leaves none of its line there. -/
def afterLoad (s : State) (x : Ctx) (va : Nat) (xl : Xlat) (n : Nat) : Core :=
  if (serves s x va xl n).isSome then s.core x.core
  else if xl.mt = 0 ∧ va % 64 + n ≤ 64 then
    l1Fill (s.core x.core) ⟨x.t, va - va % 64, xl.pa - va % 64, coreRead s x.core (xl.pa - va % 64) 64, s.clk⟩
  else l1Drop (s.core x.core) xl.pa

/-- What the cohort x is once earlier accesses of it have been taken forward: results may have come to its pending reads, and all
else of it and of its group is as it was. -/
def Became (r : State) (x y : Ctx) : Prop :=
  ctxOf r x.c = some y ∧ y.g = x.g ∧ y.co = { x.co with pend := y.co.pend }

/-- The core C after its cohort has issued a store of cells (R111): one more in its store queue. -/
def queued (C : Core) (c t mt : Nat) (cells : List Host.Cell) : Core :=
  { C with queue := C.queue ++ [⟨c, t, cells, false, mt, C.seq, false, none⟩], seq := C.seq + 1 }

/-- Nothing that a cohort has sent is on its way at a core. -/
def nothingOut (C : Core) (c : Nat) : Prop :=
  C.queue.all (fun r => r.c != c) = true ∧ C.atoms.all (fun q => q.c != c) = true ∧ C.reds.all (fun q => q.c != c) = true ∧
  C.freqs.all (fun q => q.c != c) = true

/-- No store of the core that is on its way touches the bytes. -/
def storesOff (s : State) (core : Nat) (pas : List Nat) : Bool := (s.core core).stores.all (fun r => !meets r.cells pas)

/-- After a store of n bytes of v at an address, a byte in its place, and every other byte as it was. -/
def storedByte (pa n v a : Nat) (before : Byte) : Byte :=
  if pa ≤ a ∧ a < pa + n then BitVec.ofNat 8 (v / 256 ^ (a - pa)) else before

/-- A table of bytes after n bytes of v have been stored at an offset. -/
def StoredAt (m m' : List Host.Cell) (off n v : Nat) : Prop := ∀ a, get 0 m' a = storedByte off n v a (get 0 m a)

/-- The instruction answers a next state in which, beside the state r that its ordering left (s where it orders nothing), its cohort
is base, moved past it, its core C and its group g, and in which nothing else differs. -/
def CompletesFrom (s r : State) (x : Ctx) (i : Instr) (base : Cohort) (C : Core) (g : Group) (len : Nat := 1) : Prop :=
  ∃ t co, exec i s = .next t ∧ OnlyLocal r t x co C g ∧ Moved base co len

/-- The same of an instruction that orders nothing. -/
def Completes (s : State) (x : Ctx) (i : Instr) (base : Cohort) (C : Core) (g : Group) (len : Nat := 1) : Prop :=
  CompletesFrom s s x i base C g len

/-- A load on its way: the destination stays unwritten until it returns (R295). -/
def loadPending (s : State) (x : Ctx) (va : Nat) (xl : Xlat) (d : SReg) (n : Nat) (vals : List (Nat × Word)) : Pending :=
  { tag := s.fresh, scalar := true, regs := dataOf d n, path := pathOf s xl.pa, spc := x.co.spc, va := BitVec.ofNat 64 va,
    vals := vals }

/-! ## Control flow -/

/-- A branch target: SPC plus 4 times the offset, modulo 2^32 (R270). -/
def goal {n : Nat} (co : Cohort) (off : BitVec n) : Word := BitVec.ofInt 32 ((co.spc.toNat : Int) + 4 * off.toInt)

/-- The loops after a taken transfer: one whose range the target leaves ends (R303). -/
def loopsAfter (lp : LoopRegs) (a : Word) : LoopRegs :=
  { lp with lc0 := if lp.ls0.toNat ≤ a.toNat ∧ a.toNat ≤ lp.le0.toNat then lp.lc0 else 0,
            lc1 := if lp.ls1.toNat ≤ a.toNat ∧ a.toNat ≤ lp.le1.toNat then lp.lc1 else 0 }

/-- The conditional branches of R299 on two registers, and when each is taken. -/
def branchForms : List ((SReg → SReg → BitVec 13 → Instr) × (Word → Word → Bool)) :=
  [(.beq, fun a b => decide (a = b)), (.bne, fun a b => decide (a ≠ b)),
   (.bltI32, fun a b => decide (a.toInt < b.toInt)), (.bgeI32, fun a b => decide (a.toInt ≥ b.toInt)),
   (.bltN32, fun a b => decide (a.toNat < b.toNat)), (.bgeN32, fun a b => decide (a.toNat ≥ b.toNat))]

/-- The instruction transfers control to a, with the loops lp and the return stack entries ret (depth n); nothing else of the
machine changes. -/
def Transfers (s : State) (x : Ctx) (i : Instr) (base : Cohort) (a : Word) (lp : LoopRegs) : Prop :=
  ∃ t co, exec i s = .next t ∧ OnlyCohort s t x.c co ∧ WentTo base co a lp

/-- The instruction leaves of its cohort base, moved past it, and changes nothing else. -/
def Leaves (s : State) (x : Ctx) (i : Instr) (base : Cohort) (len : Nat := 1) : Prop :=
  ∃ t co, exec i s = .next t ∧ OnlyCohort s t x.c co ∧ Moved base co len

/-- The special registers of R282 that hold a value of their own: index, the bits that it has, how to read and how to write it. -/
def specials : List (BitVec 6 × Word × (Cohort → Word) × (Cohort → Word → Cohort)) :=
  [(0, 7, (·.mode), fun co v => { co with mode := v }), (1, 31, (·.fpf), fun co v => { co with fpf := v }),
   (2, 31, (·.fpe), fun co v => { co with fpe := v }), (3, 0x3FFFFF, (·.cause), fun co v => { co with cause := v }),
   (4, 0xFFFFFFFF, (·.xpc), fun co v => { co with xpc := v }), (5, 63, (·.xlw), fun co v => { co with xlw := v }),
   (6, 0xFFFFFFFF, (·.xaddrlo), fun co v => { co with xaddrlo := v }),
   (7, 0xFFFFFFFF, (·.xaddrhi), fun co v => { co with xaddrhi := v }),
   (8, 0xFFFFFFFC, (·.loops.ls0), fun co v => { co with loops := { co.loops with ls0 := v } }),
   (9, 0xFFFFFFFC, (·.loops.le0), fun co v => { co with loops := { co.loops with le0 := v } }),
   (10, 0xFFFFFFFF, (·.loops.lc0), fun co v => { co with loops := { co.loops with lc0 := v } }),
   (11, 0xFFFFFFFC, (·.loops.ls1), fun co v => { co with loops := { co.loops with ls1 := v } }),
   (12, 0xFFFFFFFC, (·.loops.le1), fun co v => { co with loops := { co.loops with le1 := v } }),
   (13, 0xFFFFFFFF, (·.loops.lc1), fun co v => { co with loops := { co.loops with lc1 := v } })]

/-- The read-only special registers of R282 but CYCLE: index and value. -/
def readOnly (x : Ctx) : List (BitVec 6 × Word) :=
  [(14, BitVec.ofNat 32 (65536 * x.co.depth + (match x.co.ids with | [] => 0 | i :: _ => 32768 + i.toNat))),
   (16, x.co.cycleh), (17, x.co.wid.setWidth 32), (18, BitVec.ofNat 32 (x.co.wid.toNat / 2 ^ 32)),
   (19, BitVec.ofNat 32 x.co.ix), (20, BitVec.ofNat 32 (16 * x.g.member + x.g.size)), (21, BitVec.ofNat 32 x.co.role)]

/-! ## Lane blocks, barrier objects, regions and traps -/

/-- The instruction writes registers of its cohort, leaves its core C and its group g, and changes nothing else. -/
def CompletesReg (s r : State) (x : Ctx) (i : Instr) (ws : List (Nat × Word)) (C : Core) (g : Group) : Prop :=
  ∃ t co, exec i s = .next t ∧ OnlyLocal r t x co C g ∧ WroteRegs x.co co ws 1

/-- A barrier object of which all bytes and all arrivals of its phase have come begins its next phase (R310). -/
def nextPhase (o : Bar) (agent longw longt : Nat) : Bar :=
  { phase := (o.phase + 1) % 2 ^ 32, expa := (o.expa + 65536 - o.drops) % 65536, arr := 0, expb := 0, landb := 0,
    lasta := agent % 65536, longw := longw, longt := longt, drops := 0, scope := 1, pscope := max 1 o.scope }

/-- The object of g at off is o, settled: complete, it has begun its next phase; no other byte of the scratchpad differs. -/
def Settles (g g' : Group) (off agent : Nat) (o : Bar) : Prop :=
  readBar g' off = (if o.arr = o.expa ∧ o.landb = o.expb then nextPhase o agent (readBar g' off).longw (readBar g' off).longt else o) ∧
  (∀ a, (a < off ∨ off + 32 ≤ a) → get 0 g'.sp a = get 0 g.sp a) ∧
  g' = { g with sp := g'.sp, bad := g'.bad, waits := g'.waits, port := g'.port }

/-- The object after an arrival (R312). -/
def arrived (o : Bar) (scope : Nat) : Bar := { o with arr := (o.arr + 1) % 65536, scope := max o.scope scope }

/-- A BAR minor, an acquire or not, on an object that lies in the allocation, whose port no operation that comes later in R313's order
has used in this clk. -/
def barReady (s : State) (x : Ctx) (d a : SReg) (more : List Nat) (off : Nat) (acq : Bool := false) : Prop :=
  scalarReady x { regs := d.toNat :: a.toNat :: more, reads := a.toNat :: more, join := true, rd := acq, wr := true } = true ∧
  off = (x.co.reg a.toNat).toNat ∧ off % 32 = 0 ∧ off + 32 ≤ x.node.spsz ∧ x.g.portOpen off s.clk x.co.ix = true

/-- The phase p has completed when an object stands at phase q (R310). -/
def phasePast (q : Nat) (p : Word) : Prop := 0 < (BitVec.ofNat 32 q - p).toInt

/-- The core after the acquire of a completed phase p (R126, R312). -/
def barAcquired (C : Core) (o : Bar) (p : Word) : Core :=
  { C with l1d := if 2 ≤ (if BitVec.ofNat 32 o.phase = p + 1 then o.pscope else 5) then [] else C.l1d }

/-- What of a cohort is on its way at a core or a slice: none. -/
def nothingSent (s : State) (x : Ctx) : Prop :=
  x.co.pend = [] ∧ nothingOut (s.core x.core) x.c ∧
  s.slices.all (fun p => p.2.held.all (fun q => q.c != x.c)) = true

/-- The core without live operand-latch entries of a cohort (R46). -/
def latchFreed (C : Core) (c : Nat) : Core :=
  { C with latch := C.latch.map (fun e => if e.2.owner = c then (e.1, { e.2 with uses := 0 }) else e) }

/-- The cohort at its anchor: loops, modes, region stack and return stack (R419). -/
def atAnchor (co : Cohort) : Cohort :=
  { co with loops := co.anchor.loops, mode := co.anchor.mode, fpe := co.anchor.fpe, depth := co.anchor.depth, ids := co.anchor.ids,
            retDepth := co.anchor.retDepth, ret := co.anchor.ret }

/-- The group without the waits of an agent. -/
def waitsDropped (g : Group) (ix : Nat) : Group := { g with waits := g.waits.filter (fun w => w.agent != ix) }

/-- The cohort that has entered its tenant's handler (R424): what it keeps, what it records, and where it goes. -/
def inHandler (s : State) (x : Ctx) (code src : Nat) (xpc lo hi : Word) : Cohort :=
  { atAnchor x.co with
      cause := BitVec.ofNat 32 (code + 256 * src + 2048 + 4096 * x.co.anchor.ix), xpc := xpc, xlw := 0, xaddrlo := lo, xaddrhi := hi,
      laneQ := [], exports := [], pend := [], runW := [], park := none, fault := none, cont := false, gap := 0, handler := true,
      trapAt := some s.clk,
      hbase := (s.tenant x.t).thbase, hgap := (s.tenant x.t).thctl.toNat % 65536,
      shadow := (List.range 16).map (fun i => x.co.reg (48 + i)),
      spc := BitVec.ofNat 32 ((s.tenant x.t).thbase.toNat % 2 ^ 32 / 4 * 4),
      cb := BitVec.ofNat 28 ((s.tenant x.t).thbase.toNat / 2 ^ 32) }

/-- The cohort back from its handler, with the scalar registers of co: at its anchor, with its node's code base. -/
def returned (x : Ctx) (co : Cohort) : Cohort :=
  { atAnchor x.co with
      s := co.s, badS := co.badS, handler := false, gap := 0, waitS := 0, liftS := false,
      cb := BitVec.ofNat 28 (x.node.ep x.co.role / 2 ^ 32) }

/-- With a handler to be had, nothing of the cohort on its way and no other cohort's turn before it, a trap of the cohort enters its
handler at once (R424). -/
def handlerOpen (s : State) (x : Ctx) : Prop :=
  x.co.handler = false ∧ nothingSent s x ∧ (s.tenant x.t).thctl.getLsbD 16 = true ∧ (s.tenant x.t).thctl.toNat % 65536 ≠ 0 ∧
  ∀ p ∈ s.cohorts, p.1 ≠ x.c → p.2.grp = x.co.grp → p.2.handler = false ∧ p.2.park ≠ some .handler

/-- What the failed translation of an access asks of system space or of another package: the reads of its walk. -/
def walkedFor (s : State) (x : Ctx) (f : AccFault) : State :=
  match f.walk with
  | some va => walked s x.core x.t va
  | none => s

/-- The instruction takes the trap f of its stream, at xpc and xlw: no register and no byte is written, and XPC, XLW and XADDR hold
where it came and what it met (R28, R183, R414). -/
def TakesFault (s : State) (x : Ctx) (i : Instr) (f : AccFault) (src : Nat) (xpc : Word) (xlw : Nat) : Prop :=
  ∃ t, exec i s = .next t ∧
    OnlyLocal (walkedFor s x f) t x { inHandler s x f.code src xpc f.lo f.hi with xlw := BitVec.ofNat 32 xlw }
      (latchFreed (s.core x.core) x.c) (waitsDropped x.g x.co.ix)

/-- The instruction parks its cohort on the fault-ring entries of f's pages, an entry for each page and kind (R29, R30): nothing else of
the cohort differs than the record of the fault. -/
def ParksOnPages (s : State) (x : Ctx) (i : Instr) (f : AccFault) (src : Nat) (xpc : Word) (xlw : Nat) : Prop :=
  ∃ t ids, exec i s = .next t ∧ SameBytes s t ∧
    lookup t.cohorts x.c = some { x.co with
      xpc := xpc, xlw := BitVec.ofNat 32 xlw, xaddrlo := f.lo, xaddrhi := f.hi, park := some (.page ids), parkAt := s.clk,
      fault := some { code := f.code, src := src, xpc := xpc, xlw := xlw, lo := f.lo, hi := f.hi } } ∧
    (∀ k, k ≠ x.c → lookup t.cohorts k = lookup s.cohorts k) ∧
    ∀ p ∈ f.pages, ∃ e ∈ (t.tenant x.t).faults, e.id ∈ ids ∧ e.core = x.core ∧ e.va = p.va ∧ e.kind = p.kind

/-- A fault that a trap takes: it is no page fault, and no error of memory. -/
def trapsAt (f : AccFault) : Prop := f.code ≠ 0 ∧ f.code ≠ 6 ∧ f.pte = none ∧ f.spot = none

/-- A scalar access of n bytes at va, made as kd, whose checks fail: F_ADDR beyond 2^60 (R14), F_ALIGN at an address that is no multiple of
n (R27), and whatever else its check finds is trapped, or, for F_PAGE, waited for (R28, R29). -/
def FaultsAt (s : State) (x : Ctx) (i : Instr) (va n : Nat) (kd : AccessKind) : Prop :=
  (handlerOpen s x → (2 ^ 60 ≤ va → TakesFault s x i (faultAt 2 va) 0 x.co.spc 0) ∧
    (va < 2 ^ 60 → va % n ≠ 0 → TakesFault s x i (faultAt 3 va) 0 x.co.spc 0)) ∧
  ∀ f, checkAccess s x.core x.t va n n kd = .error f →
    (trapsAt f → handlerOpen s x → TakesFault s x i f 0 x.co.spc 0) ∧
    (f.code = 6 → x.g.save = false → ParksOnPages s x i f 0 x.co.spc 0)

/-- A scratchpad access of n bytes at off: F_ALIGN at an offset that is no multiple of n, F_RANGE past the allocation (R48). -/
def FaultsIn (s : State) (x : Ctx) (i : Instr) (off n : Nat) : Prop :=
  handlerOpen s x → (off % n ≠ 0 → TakesFault s x i (faultAt 3 off) 0 x.co.spc 0) ∧
    (off % n = 0 → x.node.spsz < off + n → TakesFault s x i (faultAt 4 off) 0 x.co.spc 0)

/-- The instruction has ended the launch of its cohort: END 2 and the cause code (R415). -/
def EndsLaunch (s : State) (x : Ctx) (i : Instr) (code : Nat) : Prop :=
  ∃ t l, exec i s = .next t ∧ lookup t.launches x.slot = some l ∧ l.ending = some (2, code) ∧ SameBytes s t

/-! ## Lane words -/

/-- The lane queue after the word at its head has issued: the block leaves with its last word (R169). -/
def afterWord (q : List LaneBlock) : List LaneBlock :=
  match q with
  | [] => []
  | b :: r => if b.next + 1 < b.words.length then { b with next := b.next + 1 } :: r else r

/-- How many scalar registers a lane word exports to, where it is a legal export (R279): one for VVOTE and VREDX, one or, with its pair
bit, two for VXS. -/
def lanesExport (w : BitVec 96) : Option Nat :=
  if expLegal (laneFields w) = false then none
  else if laneOp w = 0x64 ∨ laneOp w = 0x65 then some 1
  else if laneOp w = 0x67 then some (if (laneFields w).md.getLsbD 1 then 2 else 1) else none

/-- co is base after its lane word w has issued in the clk now: the word has left the queue, its late results (dst) belong to the
open run unless it closes the run (R179), and the cohort is parked where it closes a run whose results are outstanding (R180). -/
def LaneMoved (now : Nat) (base co : Cohort) (w : LaneWord) (dst : List Nat := []) : Prop :=
  co = { base with
    laneQ := afterWord base.laneQ, waitL := 0, liftL := false, runW := if w.sw then [] else base.runW ++ dst,
    park := if w.sw = true ∧ ∃ p ∈ base.pend, p.scalar = false then some .results else none,
    parkAt := if w.sw = true ∧ ∃ p ∈ base.pend, p.scalar = false then now else base.parkAt }

/-- The lane word issues and, from the state r that a release of it left (s where it makes none), leaves of its cohort base, moved
past the word, of its core C but for the operand latch, and of its group g; beside them only what counter captures count differs. -/
def LaneDoes (s r : State) (k : LCtx) (i : Instr) (base : Cohort) (C : Core) (g : Group) (dst : List Nat := []) : Prop :=
  ∃ t co C', exec i s = .next t ∧ OnlyLocal r t k.x co C' g ∧ C' = { C with latch := C'.latch } ∧ LaneMoved r.clk base co k.w dst

/-- The lane word issues and changes its cohort alone. -/
def LaneLeaves (s : State) (k : LCtx) (i : Instr) (base : Cohort) : Prop := LaneDoes s s k i base (s.core k.x.core) k.x.g

/-- A lane word w of opcode op heads its cohort's lane queue and may issue; where it closes a run, no save waits for its group. -/
def LaneGo (s : State) (k : LCtx) (op : Nat) : Prop :=
  LaneRuns s k ∧ laneReady k.x k.blk op k.w = true ∧ (k.w.sw = true → k.x.g.save = false)

/-- What stops an access before it is made, where something does. -/
def stopOf {α : Type} (r : Except AccFault α) : Option AccFault := match r with | .error f => some f | .ok _ => none

/-- The lane words that access memory or a local space: opcode, and the fault of their lanes' accesses that counts (R28, R29). -/
def laneAccesses : List ((LaneWord → Instr) × Nat × (State → LCtx → Option AccFault)) :=
  [(.vld, 0x80, fun s k => if k.w.sm = 5 then spaceFault s k 0 (wdBytes k.w.wd) (wdBytes k.w.wd)
      else stopOf (allPieces s k k.w.sm (wdBytes k.w.wd) (wdBytes k.w.wd) .read (fun _ => false))),
   (.vst, 0x81, fun s k => if k.w.sm = 5 then spaceFault s k 0 (wdBytes k.w.wd) (wdBytes k.w.wd)
      else stopOf (allPieces s k k.w.sm (wdBytes k.w.wd) (wdBytes k.w.wd) .write (fun _ => false))),
   (.vatom, 0x82, fun s k => if k.w.am = 2 then spaceFault s k 0 (if k.w.aw64 then 8 else 4) (if k.w.aw64 then 8 else 4)
      else stopOf (allPieces s k (smOfAm k.w.am k.w.aw64) (if k.w.aw64 then 8 else 4) (if k.w.aw64 then 8 else 4) .readWrite noAtomics)),
   (.vred, 0x83, fun s k =>
      stopOf (allPieces s k (smOfAm k.w.am k.w.aw64) (if k.w.aw64 then 8 else 4) (if k.w.aw64 then 8 else 4) .readWrite noAtomics)),
   (.vredo, 0x84, fun s k => stopOf (allPieces s k (smOfAm k.w.am k.w.aw64) 4 4 .readWrite (notLocal s))),
   (.vldf, 0x85, fun s k => stopOf (allPieces s k k.w.sm 16 16 .read (fun p => p.mt == 2))),
   (.vstf, 0x86, fun s k => stopOf (allPieces s k k.w.sm 16 16 .write (fun p => p.mt == 2))),
   (.vldt, 0x88, fun s k => spaceFault s k 0 16 16),
   (.vldb, 0x89, fun s k => spaceFault s k k.w.am (wdBytes k.w.bwd) (wdBytes k.w.bwd)),
   (.vstb, 0x8A, fun s k => spaceFault s k k.w.am (wdBytes k.w.bwd) (wdBytes k.w.bwd))]

/-- The lane word writes D, in its active lanes that f gives a value, and nothing else (R320). -/
def WritesLanes (s : State) (k : LCtx) (i : Instr) (f : Nat → Option Word) : Prop :=
  ∃ v badV, LaneLeaves s k i { k.x.co with v := v, badV := badV } ∧
    ∀ r l, l < 32 → get 0 v (r * 32 + l) =
      if r = k.w.d.toNat ∧ k.active l = true then (f l).getD (k.x.co.vreg r l) else k.x.co.vreg r l

/-- An element's bits, read as TY reads them and as a number. -/
def element (ty : Nat) (x : Word) (i : Nat) : Int × Nat := (elemInt ty x.toNat i, elem (tyBits ty) x.toNat i)

/-- An exact element result brought into its element: clamped to TY's range where it saturates, else its low bits (R324). -/
def intoElem (ty : Nat) (sat : Bool) (r : Int) : Nat :=
  let n := tyBits ty
  let lo : Int := if tySigned ty then -2 ^ (n - 1) else 0
  let hi : Int := if tySigned ty then 2 ^ (n - 1) - 1 else 2 ^ n - 1
  ((if sat then max lo (min hi r) else r) % 2 ^ n).toNat

/-- The integer forms that work element by element (R322 to R332): opcode, whether they saturate, and the exact element result from
TY's element of A, B and C, each as TY reads it and as a number. -/
def elementForms : List ((LaneWord → Instr) × Nat × (LaneWord → Bool) × (LaneWord → Int × Nat → Int × Nat → Int × Nat → Int)) :=
  let sat := fun w : LaneWord => w.md.getLsbD 0
  let no := fun _ : LaneWord => false
  let n := fun w : LaneWord => tyBits w.tyn
  [(.vadd, 0x01, no, fun _ a b _ => a.1 + b.1), (.vsub, 0x02, no, fun _ a b _ => a.1 - b.1),
   (.vmul, 0x03, sat, fun _ a b _ => a.1 * b.1), (.vmulh, 0x04, no, fun w a b _ => a.1 * b.1 / 2 ^ n w),
   (.vmad, 0x05, sat, fun _ a b c => a.1 * b.1 + c.1),
   (.vshl, 0x0A, sat, fun w a b _ => a.1 * 2 ^ (b.2 % n w)), (.vshr, 0x0B, no, fun w a b _ => (a.2 / 2 ^ (b.2 % n w) : Nat)),
   (.vsra, 0x0C, no, fun w a b _ => Int.bmod a.2 (2 ^ n w) / 2 ^ (b.2 % n w)),
   (.vmin, 0x0D, no, fun _ a b _ => min a.1 b.1), (.vmax, 0x0E, no, fun _ a b _ => max a.1 b.1),
   (.vabs, 0x0F, sat, fun _ a _ _ => if a.1 < 0 then -a.1 else a.1), (.vneg, 0x10, sat, fun _ a _ _ => -a.1),
   (.vsel, 0x12, no, fun _ a b c => if c.2 = 0 then (b.2 : Int) else a.2),
   (.vpopc, 0x13, no, fun w a _ _ => (((List.range (n w)).filter (fun j => a.2.testBit j)).length : Nat)),
   (.vclz, 0x14, no, fun w a _ _ => (((List.range (n w)).takeWhile (fun j => !a.2.testBit (n w - 1 - j))).length : Nat)),
   (.vctz, 0x15, no, fun w a _ _ => (((List.range (n w)).takeWhile (fun j => !a.2.testBit j)).length : Nat)),
   (.vaddsat, 0x18, fun _ => true, fun _ a b _ => a.1 + b.1), (.vsubsat, 0x19, fun _ => true, fun _ a b _ => a.1 - b.1)]

/-- COND of VCMP (R321). -/
def condHolds (c : Nat) (a b : Int) : Bool :=
  match c with
  | 0 => decide (a = b) | 1 => decide (a ≠ b) | 2 => decide (a < b) | 3 => decide (a ≥ b) | 4 => decide (a ≤ b) | _ => decide (a > b)

/-- The field that VBFE reads, len bits at pos (R330). -/
def bitField (a b : Word) : Nat × Nat :=
  (a.toNat / 2 ^ (b.toNat % 32) % 2 ^ min (b.toNat / 32 % 64) 32, min (b.toNat / 32 % 64) 32)

/-- The integer forms that work on whole words (R325, R327, R330): opcode, and the result from A, B and C. -/
def wordForms : List ((LaneWord → Instr) × Nat × (LaneWord → Word → Word → Word → Word)) :=
  [(.vand, 0x06, fun _ a b _ => a &&& b), (.vor, 0x07, fun _ a b _ => a ||| b), (.vxor, 0x08, fun _ a b _ => a ^^^ b),
   (.vandn, 0x09, fun _ a b _ => a &&& ~~~b),
   (.vbfe, 0x16, fun w a b _ => if w.tyn = 1 ∧ 0 < (bitField a b).2 then
      BitVec.ofInt 32 (Int.bmod (bitField a b).1 (2 ^ (bitField a b).2)) else BitVec.ofNat 32 (bitField a b).1),
   (.vbfi, 0x17, fun _ a b c =>
      let m := BitVec.ofNat 32 ((2 ^ (bitField a b).2 - 1) * 2 ^ (b.toNat % 32))
      (c &&& ~~~m) ||| (BitVec.ofNat 32 (a.toNat * 2 ^ (b.toNat % 32)) &&& m))]

/-- The movements of R334 with a fill: opcode, and the lane that lane i takes its value from. -/
def moveForms : List ((LaneWord → Instr) × Nat × (LaneWord → Nat → Word → Int)) :=
  [(.vshuf, 0x60, fun _ _ b => (b.toNat % 32 : Nat)), (.vshufx, 0x61, fun _ i b => (i ^^^ (b.toNat % 32) : Nat)),
   (.vshift, 0x62, fun w i b => if w.md.getLsbD 0 then (i : Int) + (b.toNat % 32 : Nat) else (i : Int) - (b.toNat % 32 : Nat))]

/-- Whether a source code is one that VBCAST and VXS take for B (R334). -/
def uniformCode (c : BitVec 9) : Prop := (256 ≤ c.toNat ∧ c.toNat ≤ 272) ∨ c.toNat = 274 ∨ c.toNat = 275

/-- What a lane takes from the lane j, or its fill (R334). -/
def takes (k : LCtx) (l : Nat) (j : Int) : Word := if 0 ≤ j ∧ j < 32 ∧ k.active j.toNat = true then k.a j.toNat else k.c l

/-- The export of values to scalar registers: they are on their way, the block's marks for them fall (R337, R341), and FPF gains
the flags fl. -/
def Exports (s : State) (k : LCtx) (i : Instr) (vals : List (Nat × Word)) (fl : Sticky := 0) : Prop :=
  LaneLeaves s k i { k.x.co with
    exports := k.x.co.exports ++ vals.map (fun v => ⟨v.1, v.2, k.blk.marks.contains (k.blk.next, v.1), s.fresh⟩),
    fpf := k.x.co.fpf ||| fl.setWidth 32,
    laneQ := { k.blk with marks := vals.foldl (fun m v => m.erase (k.blk.next, v.1)) k.blk.marks } :: k.x.co.laneQ.drop 1 }

/-- The running reduction of R336 over lanes: what each lane has after it. -/
def running (k : LCtx) : Option Nat → List Nat → List (Nat × Nat)
  | _, [] => []
  | none, l :: r => (l, redSource k l) :: running k (some (redSource k l)) r
  | some acc, l :: r => (l, (redWord k acc (redSource k l)).1) :: running k (some (redWord k acc (redSource k l)).1) r

/-! ## Lane words on floats -/

/-- The float forms that work element by element (R346 to R352): opcode, and the result and the flags of one element. -/
def floatForms : List ((LaneWord → Instr) × Nat × (LCtx → Nat → Nat → Nat → Nat × Sticky)) :=
  [(.vfadd, 0x30, fun k a b _ => fadd k.fmt k.rmode k.ftz a b), (.vfsub, 0x31, fun k a b _ => fsub k.fmt k.rmode k.ftz a b),
   (.vfmul, 0x32, fun k a b _ => fmul k.fmt k.rmode k.ftz a b), (.vfma, 0x33, fun k a b c => ffma k.fmt k.rmode k.ftz a b c),
   (.vfmin, 0x34, fun k a b _ => fminmax k.fmt k.ftz false a b), (.vfmax, 0x35, fun k a b _ => fminmax k.fmt k.ftz true a b),
   (.vfcmp, 0x36, fun k a b _ => (if (fcmp k.fmt k.ftz k.w.rsel a b).1 then 2 ^ tyBits k.w.tyn - 1 else 0,
      (fcmp k.fmt k.ftz k.w.rsel a b).2)),
   (.vrcp, 0x38, fun k a _ _ => frcp k.fmt k.rmode k.ftz a), (.vrsq, 0x39, fun k a _ _ => frsq k.fmt k.rmode k.ftz a),
   (.vsqrt, 0x3A, fun k a _ _ => fsqrt k.fmt k.rmode k.ftz a), (.vexp2, 0x3B, fun k a _ _ => fexp2 k.fmt k.rmode k.ftz a),
   (.vlog2, 0x3C, fun k a _ _ => flog2 k.fmt k.rmode k.ftz a), (.vfrnd, 0x3E, fun k a _ _ => ffrnd k.fmt k.rmode k.ftz a),
   (.vscale, 0x3F, fun k a b _ => fscale k.fmt k.rmode k.ftz a (Int.bmod b (2 ^ tyBits k.w.tyn)))]

/-- The union of flags. -/
def allFlags (fs : List Sticky) : Sticky := fs.foldl (fun m f => m ||| f) 0

/-- The lane word writes D from f, and FPF gains the flags fl, where no flag of fl is enabled (R252, R254). -/
def WritesFloat (s : State) (k : LCtx) (i : Instr) (f : Nat → Word) (fl : Sticky) : Prop :=
  fl &&& k.blk.fpe.setWidth 5 = 0 →
  ∃ v badV, LaneLeaves s k i { k.x.co with v := v, badV := badV, fpf := k.x.co.fpf ||| fl.setWidth 32 } ∧
    ∀ r l, l < 32 → get 0 v (r * 32 + l) = if r = k.w.d.toNat ∧ k.active l = true then f l else k.x.co.vreg r l

/-- The word is one whose every active lane and element has the result and the flags of g; f packs the results. -/
def Elementwise (k : LCtx) (g : Nat → Nat → Nat × Sticky) (f : Nat → Word) (fl : Sticky) : Prop :=
  (∀ l i, k.active l = true → i < tyCount k.w.tyn → elem (tyBits k.w.tyn) (f l).toNat i = (g l i).1 % 2 ^ tyBits k.w.tyn) ∧
  fl = allFlags ((k.act.map (fun l => allFlags ((List.range (tyCount k.w.tyn)).map (fun i => (g l i).2)))))

/-! ## Lane words on memory -/

/-- A lane result on its way (R178). -/
def lanePending (k : LCtx) (tag : Nat) (dst : List Nat) (path : Path) (va : Nat) : Pending :=
  { tag := tag, scalar := false, regs := dst, path := path, spc := k.blk.spc, xlw := k.blk.next, dreg := k.w.d.toNat,
    va := BitVec.ofNat 64 va }

/-- Registers from D on. -/
def fromD (k : LCtx) (n : Nat) : List Nat := (List.range n).map (k.w.d.toNat + ·)

/-- Bytes of a width code (R367). -/
def widthBytes (wd : Nat) : Nat := if wd = 0 then 4 else if wd = 1 then 1 else if wd = 2 then 2 else if wd = 3 then 8 else 16

/-- What a lane's loaded bytes write (R368): a byte or a halfword extended by TY, else a register for each four. -/
def laneLoaded (k : LCtx) (l : Nat) (b : List Byte) : List (Nat × Word) :=
  if b.length ≤ 2 then [(k.w.d.toNat * 32 + l, if k.w.tyn = 1 then BitVec.ofInt 32 (Int.bmod (leNat b) (2 ^ (8 * b.length)))
    else BitVec.ofNat 32 (leNat b))]
  else (List.range (b.length / 4)).map (fun i => ((k.w.d.toNat + i) * 32 + l, BitVec.ofNat 32 (leNat b / 2 ^ (32 * i))))

/-- What a lane stores (R368): n bytes of D, D + 1, ... -/
def laneStored (k : LCtx) (l n : Nat) : Nat := ((List.range 4).map (fun i => (k.dreg i l).toNat * 2 ^ (32 * i))).sum % 2 ^ (8 * n)

/-- Every active lane's access of n bytes to a local space is aligned, lies in its allocation and meets no locked region. -/
def inSpace (s : State) (k : LCtx) (sp n : Nat) : Prop :=
  ∀ l, l < 32 → k.active l = true → 0 ≤ k.ea 5 l ∧ k.ea 5 l % (n : Int) = 0 ∧ k.ea 5 l + (n : Int) ≤ (k.x.node.alloc sp : Int) ∧
    (sp = 3 → regionLocked s k.x.co.grp (k.ea 5 l).toNat n = false)

/-- No doubleword that the lanes access is in error. -/
def spaceGood (k : LCtx) (sp n : Nat) : Prop := ∀ l, l < 32 → k.active l = true → k.x.g.rangeBad sp (k.ea 5 l).toNat n = false

/-- No piece touches a line in error or a place that cannot be reached. -/
def piecesGood (s : State) (ps : List Piece) : Prop := ∀ p ∈ ps, rangeBad s p.xl.pa p.n = false ∧ cutOff s p.xl.pa = false

/-- The state after the release that a word makes, where it makes one; `fifo` where it only holds later stores back (R116). -/
def Released (s r : State) (k : LCtx) (rel : Prop) (scope : Nat) (fifo : Bool := false) : Prop :=
  (¬ rel → r = s) ∧ (rel → release s k.x.core k.x.t k.x.c scope fifo = some r)

/-- The cells that the lanes store to a local space, in ascending order of lanes (R108). -/
def spaceCells (k : LCtx) (n : Nat) : List Host.Cell :=
  k.act.flatMap (fun l => cellsOf (k.ea 5 l).toNat (leBytes n (laneStored k l n)))

/-- The group after the lanes have stored to one of its spaces: the last lane that names a byte gives it (R108). -/
def storesSpace (k : LCtx) (g : Group) (sp n : Nat) : Prop :=
  (∀ a, get 0 (g.space sp) a = (lastCell (spaceCells k n) a).getD (get 0 (k.x.g.space sp) a)) ∧
  (∀ o < 4, o ≠ sp → g.space o = k.x.g.space o) ∧
  g = { k.x.g with sp := g.sp, wb := g.wb, ab := g.ab, cb := g.cb, racy := g.racy, bad := g.bad }

/-- One lane's atomic on the scratchpad (R374): the cells, and the old word. -/
def padStep (k : LCtx) (n : Nat) (m : List Host.Cell × List (Nat × Word)) (l : Nat) : List Host.Cell × List (Nat × Word) :=
  let off := (k.ea 5 l).toNat
  let old := leNat (bytesAt m.1 off n)
  let a := if laneCodeOf k.w = 9 then dataOperand k k.w.aw64 l else secondOperand k k.w.aw64 l
  let new := atomicWord (laneCodeOf k.w) (8 * n) old a.toNat (secondOperand k k.w.aw64 l).toNat
  (writeCells m.1 (cellsOf off (leBytes n new)),
   m.2 ++ (List.range (n / 4)).map (fun i => ((k.w.d.toNat + i) * 32 + l, BitVec.ofNat 32 (old / 2 ^ (32 * i)))))

/-- The addresses of a word's pieces. -/
def vasOf (ps : List Piece) : List Nat := ps.map (·.va)

/-- The physical addresses of their bytes. -/
def pasOf (ps : List Piece) : List Nat := ps.flatMap (fun p => (List.range p.n).map (p.xl.pa + ·))

/-- The core's L1D without the lines of pieces (R60). -/
def linesDropped (C : Core) (ps : List Piece) : List L1Line := C.l1d.filter (fun l => ps.all (fun p => l.pa != p.xl.pa / 64 * 64))

/-- One lane's global atomic performed (R374): the bytes of memory after it, and the old words. -/
def sliceStep (k : LCtx) (n : Nat) (m : (Nat → Byte) × List (Nat × Word)) (p : Piece) : (Nat → Byte) × List (Nat × Word) :=
  let old := leNat ((List.range n).map (fun i => m.1 (p.xl.pa + i)))
  let a := if laneCodeOf k.w = 9 then dataOperand k k.w.aw64 p.lane else secondOperand k k.w.aw64 p.lane
  let new := atomicWord (laneCodeOf k.w) (8 * n) old a.toNat (secondOperand k k.w.aw64 p.lane).toNat
  (fun b => storedByte p.xl.pa n new b (m.1 b),
   m.2 ++ (List.range (n / 4)).map (fun i => ((k.w.d.toNat + i) * 32 + p.lane, BitVec.ofNat 32 (old / 2 ^ (32 * i)))))

/-- The request of one lane's global atomic. -/
def atomOf (k : LCtx) (tag seq : Nat) (p : Piece) : AtomReq :=
  { c := k.x.c, tag := tag, t := k.x.t, pa := p.xl.pa, va := BitVec.ofNat 64 p.va, code := laneCodeOf k.w, w64 := k.w.aw64,
    a := if laneCodeOf k.w = 9 then dataOperand k k.w.aw64 p.lane else secondOperand k k.w.aw64 p.lane,
    b := secondOperand k k.w.aw64 p.lane,
    keys := (List.range (if k.w.aw64 then 2 else 1)).map (fun i => (k.w.d.toNat + i) * 32 + p.lane), seq := seq }

/-! ## Loader and storer -/

/-- The instruction has retired: its core is r at the pc, one more instruction retired, its group otherwise g, its compute core C, and
nothing else differs. -/
def RvGoes (s : State) (k : RvCtx) (i : Instr) (g : Group) (r : RvCore) (pc : Dword) (C : Core) : Prop :=
  ∃ t, exec i s = .next t ∧
    lookup t.groups k.gid = some (g.setRv k.st { r with pc := pc, instret := k.r.instret + 1 }) ∧
    (∀ j, j ≠ k.gid → lookup t.groups j = lookup s.groups j) ∧ t.core k.g.core = C ∧
    (∀ j, j ≠ k.g.core → t.core j = s.core j) ∧ SameBytes s t ∧ t = { s with groups := t.groups, cores := t.cores }

/-- A register table in which rd holds v and every other register what it held; a write to x0 is discarded (R144). -/
def XWritten (r : RvCore) (x' : SMap Dword) (rd : XReg) (v : Dword) : Prop :=
  (rd = 0 → x' = r.x) ∧ ∀ n, ({ r with x := x' } : RvCore).xreg n = if n = rd ∧ rd ≠ 0 then v else r.xreg n

/-- The instruction writes rd, leaves of its core r, of its group g and of its compute core C, and goes on at the next one. -/
def RvWrites (s : State) (k : RvCtx) (i : Instr) (len : Nat) (rd : XReg) (v : Dword) (r : RvCore) (g : Group) (C : Core) : Prop :=
  ∃ x', XWritten k.r x' rd v ∧ RvGoes s k i g { r with x := x' } (k.r.pc + BitVec.ofNat 64 len) C

/-- The instruction writes rd and nothing else. -/
def RvOnly (s : State) (k : RvCtx) (i : Instr) (len : Nat) (rd : XReg) (v : Dword) : Prop :=
  RvWrites s k i len rd v k.r k.g (s.core k.g.core)

/-- A number's low 32 bits, extended with their sign. -/
def lowWord (n : Int) : Dword := BitVec.ofInt 64 (Int.bmod n (2 ^ 32))

/-- The low 32 bits of a register, as a number and as a signed number. -/
def uw (a : Dword) : Nat := a.toNat % 2 ^ 32
def sw (a : Dword) : Int := Int.bmod a.toNat (2 ^ 32)

/-- 1 or 0 in a 64-bit register. -/
def oneIfX (b : Bool) : Dword := if b then 1 else 0

/-- The register operations of RV64IM, Zba and Zbb (R144). -/
def aluForms : List (RvAlu × (Dword → Dword → Dword)) :=
  [(.add, fun a b => BitVec.ofNat 64 (a.toNat + b.toNat)), (.sub, fun a b => BitVec.ofInt 64 ((a.toNat : Int) - b.toNat)),
   (.sll, fun a b => BitVec.ofNat 64 (a.toNat * 2 ^ (b.toNat % 64))), (.slt, fun a b => oneIfX (decide (a.toInt < b.toInt))),
   (.sltu, fun a b => oneIfX (decide (a.toNat < b.toNat))), (.xor, fun a b => a ^^^ b),
   (.srl, fun a b => BitVec.ofNat 64 (a.toNat / 2 ^ (b.toNat % 64))), (.sra, fun a b => BitVec.ofInt 64 (a.toInt / 2 ^ (b.toNat % 64))),
   (.or, fun a b => a ||| b), (.and, fun a b => a &&& b),
   (.addw, fun a b => lowWord (a.toNat + b.toNat)), (.subw, fun a b => lowWord ((a.toNat : Int) - b.toNat)),
   (.sllw, fun a b => lowWord (a.toNat * 2 ^ (b.toNat % 32) : Nat)), (.srlw, fun a b => lowWord (uw a / 2 ^ (b.toNat % 32) : Nat)),
   (.sraw, fun a b => lowWord (sw a / 2 ^ (b.toNat % 32))),
   (.mul, fun a b => BitVec.ofNat 64 (a.toNat * b.toNat)), (.mulh, fun a b => BitVec.ofInt 64 (a.toInt * b.toInt / 2 ^ 64)),
   (.mulhsu, fun a b => BitVec.ofInt 64 (a.toInt * b.toNat / 2 ^ 64)), (.mulhu, fun a b => BitVec.ofNat 64 (a.toNat * b.toNat / 2 ^ 64)),
   (.div, fun a b => BitVec.ofInt 64 (if b = 0 then -1 else Int.tdiv a.toInt b.toInt)),
   (.divu, fun a b => BitVec.ofNat 64 (if b = 0 then 2 ^ 64 - 1 else a.toNat / b.toNat)),
   (.rem, fun a b => BitVec.ofInt 64 (if b = 0 then a.toInt else Int.tmod a.toInt b.toInt)),
   (.remu, fun a b => BitVec.ofNat 64 (if b = 0 then a.toNat else a.toNat % b.toNat)),
   (.mulw, fun a b => lowWord (a.toNat * b.toNat : Nat)), (.divw, fun a b => lowWord (if sw b = 0 then -1 else Int.tdiv (sw a) (sw b))),
   (.divuw, fun a b => lowWord (if uw b = 0 then (2 ^ 32 - 1 : Nat) else (uw a / uw b : Nat))),
   (.remw, fun a b => lowWord (if sw b = 0 then sw a else Int.tmod (sw a) (sw b))),
   (.remuw, fun a b => lowWord (if uw b = 0 then (uw a : Int) else (uw a % uw b : Nat))),
   (.adduw, fun a b => BitVec.ofNat 64 (uw a + b.toNat)), (.sh1add, fun a b => BitVec.ofNat 64 (2 * a.toNat + b.toNat)),
   (.sh2add, fun a b => BitVec.ofNat 64 (4 * a.toNat + b.toNat)), (.sh3add, fun a b => BitVec.ofNat 64 (8 * a.toNat + b.toNat)),
   (.sh1adduw, fun a b => BitVec.ofNat 64 (2 * uw a + b.toNat)), (.sh2adduw, fun a b => BitVec.ofNat 64 (4 * uw a + b.toNat)),
   (.sh3adduw, fun a b => BitVec.ofNat 64 (8 * uw a + b.toNat)), (.andn, fun a b => a &&& ~~~b), (.orn, fun a b => a ||| ~~~b),
   (.xnor, fun a b => ~~~(a ^^^ b)), (.min, fun a b => BitVec.ofInt 64 (min a.toInt b.toInt)),
   (.minu, fun a b => BitVec.ofNat 64 (min a.toNat b.toNat)), (.max, fun a b => BitVec.ofInt 64 (max a.toInt b.toInt)),
   (.maxu, fun a b => BitVec.ofNat 64 (max a.toNat b.toNat)),
   (.rol, fun a b => BitVec.ofNat 64 (a.toNat * 2 ^ (b.toNat % 64) + a.toNat / 2 ^ (64 - b.toNat % 64))),
   (.ror, fun a b => BitVec.ofNat 64 (a.toNat / 2 ^ (b.toNat % 64) + a.toNat * 2 ^ (64 - b.toNat % 64))),
   (.rolw, fun a b => lowWord (uw a * 2 ^ (b.toNat % 32) + uw a / 2 ^ (32 - b.toNat % 32) : Nat)),
   (.rorw, fun a b => lowWord (uw a / 2 ^ (b.toNat % 32) + uw a * 2 ^ (32 - b.toNat % 32) : Nat))]

/-- The operations with a 12-bit immediate (R144). -/
def immForms : List (RvImm × (Dword → Int → Dword)) :=
  [(.addi, fun a i => BitVec.ofInt 64 (a.toNat + i)), (.slti, fun a i => oneIfX (decide (a.toInt < i))),
   (.sltiu, fun a i => oneIfX (decide (a.toNat < (i % 2 ^ 64).toNat))), (.xori, fun a i => a ^^^ BitVec.ofInt 64 i),
   (.ori, fun a i => a ||| BitVec.ofInt 64 i), (.andi, fun a i => a &&& BitVec.ofInt 64 i), (.addiw, fun a i => lowWord (a.toNat + i))]

/-- The shifts and rotations by an immediate (R144). -/
def shiftForms : List (RvShift × (Dword → Nat → Dword)) :=
  [(.slli, fun a n => BitVec.ofNat 64 (a.toNat * 2 ^ n)), (.srli, fun a n => BitVec.ofNat 64 (a.toNat / 2 ^ n)),
   (.srai, fun a n => BitVec.ofInt 64 (a.toInt / 2 ^ n)), (.slliw, fun a n => lowWord (a.toNat * 2 ^ n : Nat)),
   (.srliw, fun a n => lowWord (uw a / 2 ^ n : Nat)), (.sraiw, fun a n => lowWord (sw a / 2 ^ n)),
   (.rori, fun a n => BitVec.ofNat 64 (a.toNat / 2 ^ n + a.toNat * 2 ^ (64 - n))),
   (.roriw, fun a n => lowWord (uw a / 2 ^ n + uw a * 2 ^ (32 - n) : Nat)), (.slliuw, fun a n => BitVec.ofNat 64 (uw a * 2 ^ n))]

/-- Byte i of a register. -/
def byteOf (a : Dword) (i : Nat) : Nat := a.toNat / 256 ^ i % 256

/-- The operations on one register (R144). -/
def unaryForms : List (RvUnary × (Dword → Dword)) :=
  [(.clz, fun a => BitVec.ofNat 64 ((List.range 64).takeWhile (fun j => !a.getLsbD (63 - j))).length),
   (.ctz, fun a => BitVec.ofNat 64 ((List.range 64).takeWhile (fun j => !a.getLsbD j)).length),
   (.cpop, fun a => BitVec.ofNat 64 ((List.range 64).filter (fun j => a.getLsbD j)).length),
   (.clzw, fun a => BitVec.ofNat 64 ((List.range 32).takeWhile (fun j => !a.getLsbD (31 - j))).length),
   (.ctzw, fun a => BitVec.ofNat 64 ((List.range 32).takeWhile (fun j => !a.getLsbD j)).length),
   (.cpopw, fun a => BitVec.ofNat 64 ((List.range 32).filter (fun j => a.getLsbD j)).length),
   (.sextb, fun a => BitVec.ofInt 64 (Int.bmod a.toNat (2 ^ 8))), (.sexth, fun a => BitVec.ofInt 64 (Int.bmod a.toNat (2 ^ 16))),
   (.zexth, fun a => BitVec.ofNat 64 (a.toNat % 2 ^ 16)),
   (.orcb, fun a => BitVec.ofNat 64 ((List.range 8).map (fun i => if byteOf a i = 0 then 0 else 255 * 256 ^ i)).sum),
   (.rev8, fun a => BitVec.ofNat 64 ((List.range 8).map (fun i => byteOf a i * 256 ^ (7 - i))).sum)]

/-- The conditional branches (R144). -/
def rvBranchForms : List (RvBranch × (Dword → Dword → Bool)) :=
  [(.beq, fun a b => decide (a = b)), (.bne, fun a b => decide (a ≠ b)), (.blt, fun a b => decide (a.toInt < b.toInt)),
   (.bge, fun a b => decide (a.toInt ≥ b.toInt)), (.bltu, fun a b => decide (a.toNat < b.toNat)),
   (.bgeu, fun a b => decide (a.toNat ≥ b.toNat))]

/-- What an AMO stores, from the n-bit old number and the n-bit register (R144). -/
def amoForms : List (RvAmo × (Nat → Nat → Nat → Nat)) :=
  [(.swap, fun _ _ b => b), (.add, fun n a b => (a + b) % 2 ^ n), (.xor, fun _ a b => a ^^^ b), (.and, fun _ a b => a &&& b),
   (.or, fun _ a b => a ||| b), (.min, fun n a b => if Int.bmod a (2 ^ n) ≤ Int.bmod b (2 ^ n) then a else b),
   (.max, fun n a b => if Int.bmod a (2 ^ n) ≥ Int.bmod b (2 ^ n) then a else b), (.minu, fun _ a b => min a b),
   (.maxu, fun _ a b => max a b)]

/-- The bytes of the widths. -/
def rvWidths : List (RvWidth × Nat) := [(.b, 1), (.h, 2), (.w, 4), (.d, 8)]

/-- An address in the instruction RAM, for reads, or the data RAM (R145). -/
def inRam (a n : Nat) : Prop := 0x10000 ≤ a ∧ a + n ≤ 0x14000
def inRom (a n : Nat) : Prop := a + n ≤ 0x8000

/-- The n bytes at an address, as a number. -/
def ramNat (r : RvCore) (a n : Nat) : Nat := leNat (if a < 0x10000 then bytesAt r.imem a n else bytesAt r.dram (a - 0x10000) n)

/-- The bytes of an instruction. -/
def rvLen (short : Bool) : Nat := if short then 2 else 4

/-- The address of a load or a store. -/
def rvAddr (k : RvCtx) (rs1 : XReg) (imm : BitVec 12) : Nat := (((k.r.xreg rs1).toNat + imm.toInt) % 2 ^ 64).toNat

/-- An instruction of RV64. -/
def rvI (op : RvOp) (short : Bool) : Instr := .riscvInstruction op short

/-- The command of the descriptor in the slot that rowsel names. -/
def shownCmd (k : RvCtx) : Option TileCmd := lookup k.r.slots k.r.rowsel.toNat

/-- The CSRs of R151 and their values; the status word and rowmap stand in the statement of TSTAT. -/
def csrs (s : State) (k : RvCtx) : List (BitVec 12 × Dword) :=
  let id := BitVec.ofNat 64 (512 * (k.g.core / 128) + 4 * (k.g.core % 128) + (if k.st then 1 else 0))
  [(0xC00, BitVec.ofNat 64 (s.clk - k.r.cyc0)), (0xC02, k.r.instret), (0xF14, id), (0x7C0, k.r.rowsel), (0xFC0, id),
   (0xFC1, BitVec.ofNat 64 (8 - k.r.slots.length)), (0xFC2, k.r.tqtick),
   (0xFC4, match shownCmd k with | some c => BitVec.ofNat 64 c.rowdone | none => 0),
   (0xFC6, match shownCmd k with | some c => c.tqva | none => 0)]

/-! ## Tile commands -/

/-- The issue instructions of R153, the kind that each gives its command, and the core that alone may issue it. -/
def tileForms : List ((XReg → XReg → Instr) × Nat × Option Bool) :=
  [(.tld, 0, some false), (.tldt, 1, some false), (.tlds, 2, some false), (.tgath, 3, some false), (.tst, 4, some true),
   (.tcopy, 5, none)]

/-- The command that an issue puts into a slot: the descriptor at rs1, and the next ticket (R150, R153). -/
def newCmd (k : RvCtx) (rs1 : XReg) (kind : Nat) : TileCmd :=
  { desc := BitVec.ofNat 512 (ramNat k.r (k.r.xreg rs1).toNat 64), ticket := k.r.tqtick, kind := kind, fwait := k.r.fnext }

/-- The descriptor that rs1 names lies, aligned, in the data RAM of a core that may issue the command (R153). -/
def issueReady (k : RvCtx) (rs1 : XReg) (only : Option Bool) : Prop :=
  only ≠ some (!k.st) ∧ (k.r.xreg rs1).toNat % 64 = 0 ∧ inRam (k.r.xreg rs1).toNat 64

/-- A slot that no command holds. -/
def freeSlotOf (k : RvCtx) (n : Nat) : Prop := n < 8 ∧ lookup k.r.slots n = none

/-- A command that counts on a barrier object finds it without error, and its port open to its engine in this clk (R313). -/
def barOpen (s : State) (k : RvCtx) (c : TileCmd) : Prop :=
  c.be = true → k.g.portOpen c.boff s.clk (if k.st then 0x4000 else 0x2000) = true ∧ k.g.rangeBad 0 c.boff 32 = false

/-- The table of slots with one slot's command replaced. -/
def SlotsWith (m m' : List (Nat × TileCmd)) (slot : Nat) (c : Option TileCmd) : Prop :=
  ∀ n, lookup m' n = if n = slot then c else lookup m n

/-! ## Events of cohorts and slices -/

/-- The last value that a list gives a register. -/
def lastVal (vs : List (Nat × Word)) (n : Nat) : Option Word := (vs.reverse.find? (fun p => p.1 == n)).map (·.2)

/-- A result that a return delivers: the cohort still runs, it is the pending result p at place k, and it holds no error. -/
def Returns (s : State) (x : Ctx) (k : Nat) (p : Pending) : Prop :=
  ctxOf s x.c = some x ∧ x.co.ended = false ∧ x.l.ending = none ∧ x.co.pend[k]? = some p ∧ p.bad = none

/-- A wait of a parked cohort that has ended (R181). -/
def waitEnded (s : State) (x : Ctx) : Prop :=
  (x.co.park = some .results ∧ ∀ p ∈ x.co.pend, p.scalar = true) ∨
  (∃ off p, x.co.park = some (.barrier off p) ∧ phasePast (readBar x.g off).phase p) ∨
  (∃ b, x.co.park = some (.batch b) ∧ 0 ≤ (x.co.lcpl - b).toInt) ∨
  (∃ ids, x.co.park = some (.page ids) ∧ ∀ e ∈ (s.tenant x.t).faults, e.id ∉ ids)

/-- Where a request's bytes go: to this package's memory, to good lines, with no future request held on them, and the die answers. -/
def plainTarget (s : State) (pas : List Nat) : Prop :=
  (∀ a ∈ pas, placeOf s a = .hbm ∧ s.badLines.contains (a / 64) = false ∧ (s.slice (homeSlice a)).held = []) ∧
  ∀ a ∈ pas, homeReady s a = true

/-- The operations of R75: the new word of w bits from the old word and the operands. -/
def atomForms : List (Nat × (Nat → Nat → Nat → Nat → Nat)) :=
  [(0, fun w o a _ => (o + a) % 2 ^ w), (1, fun _ o a _ => o &&& a), (2, fun _ o a _ => o ||| a), (3, fun _ o a _ => o ^^^ a),
   (4, fun w o a _ => if Int.bmod o (2 ^ w) ≤ Int.bmod a (2 ^ w) then o else a),
   (5, fun w o a _ => if Int.bmod o (2 ^ w) ≥ Int.bmod a (2 ^ w) then o else a), (6, fun _ o a _ => min o a),
   (7, fun _ o a _ => max o a), (8, fun _ _ a _ => a), (9, fun _ o a b => if o = a then b else o),
   (10, fun _ o a _ => (fadd f32 0 false o a).1),
   (11, fun _ o a _ => (fadd f16 0 false (o % 2 ^ 16) (a % 2 ^ 16)).1 + 2 ^ 16 * (fadd f16 0 false (o / 2 ^ 16 % 2 ^ 16) (a / 2 ^ 16 % 2 ^ 16)).1),
   (12, fun _ o a _ => (fadd bf16 0 false (o % 2 ^ 16) (a % 2 ^ 16)).1 + 2 ^ 16 * (fadd bf16 0 false (o / 2 ^ 16 % 2 ^ 16) (a / 2 ^ 16 % 2 ^ 16)).1),
   (13, fun _ o a _ => (fminmax f32 false false o a).1), (14, fun _ o a _ => (fminmax f32 false true o a).1)]

/-- The old word's values for the registers of an atomic. -/
def oldWords (keys : List Nat) (old : Nat) : List (Nat × Word) :=
  (List.range keys.length).map (fun i => (keys.getD i 0, BitVec.ofNat 32 (old / 2 ^ (32 * i))))

/-- n consecutive addresses. -/
def span (a n : Nat) : List Nat := (List.range n).map (a + ·)

/-- A write to another package has left its core, now C, and is counted as refused or lost for its tenant; nothing else differs. -/
def CountedLost (s t : State) (ten core : Nat) (C : Core) : Prop :=
  SameBytes s t ∧ t = { s with cores := t.cores, tenants := t.tenants } ∧ t.core core = C ∧
  (∀ j, j ≠ core → t.core j = s.core j) ∧ t.tenant ten = { s.tenant ten with tlref := (s.tenant ten).tlref + 1 } ∧
  ∀ j, j ≠ ten → t.tenant j = s.tenant j

/-- What of a state a write at a home slice may change. -/
def OnlyWritten (s t : State) : Prop := t = { s with mem := t.mem, badLines := t.badLines, cores := t.cores, cohorts := t.cohorts }

/-! ## Events of the engines -/

/-- The command c in a slot of a resident group's queue, while its launch goes on. -/
def CmdAt (s : State) (k : RvCtx) (slot : Nat) (c : TileCmd) : Prop :=
  rvOf s k.gid k.st = some k ∧ k.l.ending = none ∧ lookup k.r.slots slot = some c

/-- The event leaves in the slot the command c (or frees it), leaves of its group g, and changes no other group. -/
def SlotBecomes (s t : State) (k : RvCtx) (slot : Nat) (c : Option TileCmd) (g : Group) : Prop :=
  ∃ m, SlotsWith k.r.slots m slot c ∧ lookup t.groups k.gid = some (g.setRv k.st { k.r with slots := m }) ∧
    (∀ j, j ≠ k.gid → lookup t.groups j = lookup s.groups j) ∧ t.cohorts = s.cohorts ∧ t.launches = s.launches ∧ SameTenants s t

/-- The command counts nothing, or its barrier object has counted n bytes at a scope (R157). -/
def Counted (k : RvCtx) (c : TileCmd) (g g' : Group) (scope n : Nat) : Prop :=
  (c.be = false → g' = g) ∧
  (c.be = true → ∀ o, o = readBar g c.boff → o.landb + n ≤ o.expb ∧
    Settles g g' c.boff (if k.st then 0x4000 else 0x2000) { o with landb := o.landb + n, scope := max o.scope scope })

/-- An operation is the one that its core's engine works on. -/
def EngineHas (s : State) (core : Nat) (x : Ctx) (m : MatOp) : Prop :=
  (s.core core).engine = [m] ∧ ctxOf s m.c = some x ∧ x.l.ending = none ∧ m.finished = false

/-- A byte of a typed buffer as a signed number. -/
def int8At (m : List Host.Cell) (a : Nat) : Int := Int.bmod (get 0 m a).toNat 256

/-! ## Translation, links and host registers -/

/-- Only tenants' registers differ, and only those of t, which are now T. -/
def TenantBecomes (s u : State) (t : Nat) (T : Tenant) : Prop :=
  u = { s with tenants := u.tenants } ∧ u.tenant t = T ∧ ∀ k, k ≠ t → u.tenant k = s.tenant k

/-- The entry that a fault posts, as a number of 32 bytes (R31). -/
def faultNat (e : FaultEntry) (seq : Word) : Nat :=
  e.va / 65536 * 65536 % 2 ^ 64 + seq.toNat * 2 ^ 64 + e.kind % 256 * 2 ^ 96 + e.agent % 256 * 2 ^ 104 + e.core % 512 * 2 ^ 112 +
    e.lvl % 256 * 2 ^ 128 + e.reason % 256 * 2 ^ 136

/-- What an invalidation with a TXINV value and a TXINVN count covers of len bytes at a (R37). -/
def coveredBy (v : Dword) (n : Word) (a len : Nat) : Prop :=
  v.toNat / 2 ^ 62 = 0 ∨ (v.toNat / 65536 % 2 ^ 44 * 65536 < a + len ∧ a < v.toNat / 65536 % 2 ^ 44 * 65536 + (n.toNat + 1) * 65536)

/-- The registers of a tenant that a host write of the physical function sets with no other effect (R24 to R26, R423, R439):
offset for tenant 0, the bits that they have, and the tenant after the write. -/
def plainRegs : List (Nat × Dword × (Dword → Tenant → Tenant)) :=
  [(0x01000008, 0x000FFFFFFFFFC000, fun v T => { T with txroot := v }), (0x01000010, 0x000FFFFFFFFFFFE0, fun v T => { T with txfrb := v }),
   (0x01000038, 0x00000000FFFFFFFF, fun v T => { T with txinvn := v.setWidth 32 }),
   (0x03000000, 0x0FFFFFFFFFFFFFFC, fun v T => { T with thbase := v }), (0x03000008, 0x000000000001FFFF, fun v T => { T with thctl := v }),
   (0x04000008, 0xFFFFFFFFFFFFFFFF, fun v T => { T with dbgdata := v }), (0x04000080, 0x0FFFFFFFFFFFFFC0, fun v T => { T with trbase := v }),
   (0x04000098, 0x00000000FFFFFFFF, fun v T => { T with trt := v.setWidth 32 })]

/-- The package is a member, and admits an access of another package that reads or writes n bytes (R455, R456). -/
def Admitted (s : State) (a : RemoteAccess) (n : Nat) (wr : Bool) : Prop :=
  s.link.len = true ∧ s.link.pkgid ≠ 1023 ∧ admitted s.link a.key.toNat a.off.toNat n wr = true ∧ homeReady s a.off.toNat = true

/-- The package has answered. -/
def Replied (s t : State) (pkg status : Nat) (b : List Byte) : Prop :=
  t.link = { s.link with replies := s.link.replies ++ [⟨pkg, status, b⟩] }

/-! ## Anvil and the debugger -/

/-- Only Anvil differs, and is now a. -/
def AnvilBecomes (s t : State) (a : Anvil) : Prop := t = { s with anvil := a }

/-- An error record that patrol or sweep gives of a line (R464). -/
def lineError (place die l : Nat) : ErrorRec := ⟨place, true, die, 255, 0xFFFF, 64 * l⟩

/-- Every launch with a group on a core or a die has ended, with F_DATA where it had not ended before. -/
def EndedThere (s t : State) (slots : List Nat) : Prop :=
  ∀ k l, lookup s.launches k = some l → lookup t.launches k =
    some (if k ∈ slots ∧ l.ending = none then { l with ending := some (2, 7), endAt := s.clk } else l)

/-- The machine as a module reset, or a loss of power, leaves it (R7, R461): all but the world outside. -/
def AfterReset (s t : State) (on : Bool) : Prop :=
  t = { State.reset with
    powered := on, mem := t.mem, agenda := s.agenda, msgs := s.msgs, sysOut := s.sysOut, hostOut := s.hostOut,
    draw := s.draw,
    anvil := { flash := s.anvil.flash, keyHash := s.anvil.keyHash, minVer := s.anvil.minVer, secret := s.anvil.secret } } ∧
  ∀ a, readByte t a = if a < 2 ^ 40 then 0 else readByte s a

/-- The error record as a number of 32 bytes (R464). -/
def errNat (e : ErrorRec) (seq : Word) : Nat :=
  seq.toNat + e.place % 256 * 2 ^ 32 + (if e.fatal then 2 ^ 40 else 0) + e.die % 256 * 2 ^ 48 + e.tenant % 256 * 2 ^ 56 +
    (if e.core < 512 then e.core % 128 else 0xFFFF) * 2 ^ 64 + e.addr % 2 ^ 64 * 2 ^ 128

/-- A debugger's command of an OP that its tenant may give, whose fields are right (R439, R446). -/
def Commands (s : State) (t : Nat) (v : Dword) (c : DbgCmd) (op : Nat) : Prop :=
  c = dbgCmdOf v ∧ c.op = op ∧ (s.tenant t).right = true ∧ (s.tenant t).dbgst ≠ 1 ∧ c.bad = false

/-- Its group is halted in the slot that it names. -/
def HaltedAt (s : State) (t : Nat) (c : DbgCmd) (h : HaltSlot) (g : Group) (l : Launch) : Prop :=
  lookup (s.tenant t).halts c.hslot = some h ∧ lookup s.groups h.grp = some g ∧ lookup s.launches g.slot = some l

/-- The cohort that a command names, the only one of its group with its index that has not ended. -/
def NamedCohort (s : State) (c : DbgCmd) (h : HaltSlot) (j : Nat) (co : Cohort) : Prop :=
  lookup s.cohorts j = some co ∧ co.grp = h.grp ∧ co.ix = c.cohix ∧ co.ended = false ∧
  ∀ p ∈ s.cohorts, p.2.grp = h.grp → p.2.ix = c.cohix → p.2.ended = false → p = (j, co)

/-- The tenant after a command that is done. -/
def cmdDone (T : Tenant) : Tenant := { T with dbgst := 2, dbgfail := 0 }

/-! ## Queues -/

/-- Only the queue q differs, and is now Q. -/
def QueueBecomes (s t : State) (q : Nat) (Q : Queue) : Prop :=
  t = { s with queues := t.queues } ∧ t.queue q = Q ∧ ∀ k, k ≠ q → t.queue k = s.queue k

/-- The queue has no interrupt armed, and no WAIT of any queue has started. -/
def quiet (s : State) (q : Nat) : Prop :=
  (s.queue q).arm = false ∧ ∀ p ∈ s.queues, ∀ w ∈ p.2.window, ∀ at_, w.state ≠ .waits at_

/-- The machine in whose clk the host has written tokens: no packet completes in it any more (R227). -/
def hostWrote (s : State) : State := { s with starts := { s.starts with host := some s.clk } }

/-- A queue whose packet p has come to stand in a state. -/
def standing (Q : Queue) (p : WinPkt) (st : PktState) : Queue :=
  { Q with window := Q.window.map (fun x => if x.id = p.id then { x with state := st } else x) }

/-- A queue whose packet p has completed: its set mask applies and it has left the window (R227, R228). -/
def packetOut (Q : Queue) (p : WinPkt) : Queue :=
  { Q with tok := Q.tok ||| p.smask, window := Q.window.filter (fun x => x.id != p.id) }

/-- The function whose message a queue sends, and the vectors that it has (R453). -/
def queueFn (s : State) (q : Nat) : Nat := if q < 64 then 0 else (s.tenant (q / 64 - 1)).vf

/-- n bytes at a virtual address that lie in one page, at pa in good memory, and may be written. -/
def plainAt (s : State) (t va n pa : Nat) : Prop := xlatRange s t va n .write = .ok [(pa, n)] ∧ plainTarget s (span pa n)

/-- The bytes b stand at pa, and every other byte is as before. -/
def BytesPut (s t : State) (pa : Nat) (b : List Byte) : Prop :=
  ∀ a, readByte t a = if pa ≤ a ∧ a < pa + b.length then b.getD (a - pa) 0 else readByte s a

/-- A completion record as a number of 32 bytes, its counts zero (R232). -/
def crecNat (state fail cause end_ slot gen : Nat) : Nat :=
  state + 2 ^ 8 * fail + 2 ^ 16 * cause + 2 ^ 24 * end_ + 2 ^ 48 * slot + 2 ^ 64 * gen

/-- The completion record of a GRAPH at crec, or no byte changed where crec is 0. -/
def CrecWritten (s t : State) (ten crec v : Nat) : Prop :=
  (crec = 0 → SameBytes s t) ∧
  (crec ≠ 0 → ∀ pa, plainAt s ten crec 32 pa → ∀ a, readByte t a = storedByte pa 32 v a (readByte s a))

/-! ## Records, launches and groups -/

/-- Only the die differs, and is now D. -/
def DieBecomes (s t : State) (die : Nat) (D : Die) : Prop :=
  t = { s with dies := t.dies } ∧ t.die die = D ∧ ∀ k, k ≠ die → t.die k = s.die k

/-- Pages with each of their records changed. -/
def eachRec (pages : List RecPage) (f : Rec → Rec) : List RecPage :=
  pages.map (fun p => { p with recs := p.recs.map (fun r => (r.1, f r.2)) })

/-- The launches with only that of a slot changed. -/
def LaunchBecomes (s t : State) (slot : Nat) (l : Launch) : Prop :=
  t = { s with launches := t.launches } ∧ ∀ k, lookup t.launches k = if k = slot then some l else lookup s.launches k

/-- Pages have identities of their own. -/
def pagesApart (s : State) (die : Nat) : Prop := ((s.die die).pages.map (·.id)).Nodup

/-- The pages of a queue fill in order: none after the first that has a place has a record. -/
def inOrder (ps : List RecPage) (n : Nat) : Prop :=
  ∀ pre p post, ps = pre ++ p :: post → p.used < n → ∀ x ∈ post, x.recs = []

/-- The arena still holds each record of a spilled page as it was spilled (R96). -/
def asSpilled (s : State) (l : Launch) (a : Nat) (p : RecPage) : Prop :=
  ∀ r ∈ p.recs, readMem s (arenaPa s l a + 64 + r.1 * (l.node r.2.node).recBytes) (l.node r.2.node).recBytes =
    padTo (l.node r.2.node).recBytes (recHeader r.2 ++ r.2.payload)

/-- A cohort as its launch starts it (R172): place, entry point, and s0 to s8. -/
def Started (n : NodeCopy) (rs : List Rec) (gid i : Nat) (co : Cohort) : Prop :=
  ∃ (role ep : Nat) (wid : Dword), role = (if i < n.nc0 then 0 else 1) ∧ ep = (if role = 1 then n.ep1 else n.ep0) ∧
    wid = BitVec.ofNat 64 (leNat (((rs.map (·.payload)).headD []).take 8)) ∧
    co.grp = gid ∧ co.ix = i ∧ co.role = role ∧ co.nv = (if role = 1 then n.nv1 else n.nv0) ∧ co.wid = wid ∧
    co.spc = BitVec.ofNat 32 ep ∧ co.cb = BitVec.ofNat 28 (ep / 2 ^ 32) ∧
    co.live = (if n.kind = 0 then BitVec.ofNat 32 (2 ^ rs.length - 1) else 0xFFFFFFFF) ∧
    (∀ r, co.reg r = [if n.kind = 0 then BitVec.ofNat 32 (2 ^ rs.length - 1) else BitVec.ofNat 32 rs.length, BitVec.ofNat 32 i,
      BitVec.ofNat 32 wid.toNat, BitVec.ofNat 32 (wid.toNat / 2 ^ 32), BitVec.ofNat 32 n.const, BitVec.ofNat 32 (n.const / 2 ^ 32),
      BitVec.ofNat 32 role, 1, if n.kind = 0 then 0 else BitVec.ofNat 32 (n.rwo * 64)].getD r 0) ∧
    (n.kind = 0 → ∀ k l, l < 32 → co.vreg k l = (rs[l]?.map (fun r => if k < r.payload.length / 4 then
      BitVec.ofNat 32 (leNat ((r.payload.drop (4 * k)).take 4)) else 0)).getD 0) ∧
    co.mode = 0 ∧ co.fpe = 0 ∧ co.fpf = 0 ∧ co.depth = 0 ∧ co.retDepth = 0 ∧ co.park = none ∧ co.handler = false

/-- What a launch of a tenant has sent is settled: no core holds a store, an atomic or a reduction of the tenant, an entry of the launch
or a future request of one of its cohorts, no slice holds an entry of it, and the tenant has no reduction overflow area. -/
def atRest (s : State) (t slot : Nat) : Prop :=
  (∀ p ∈ s.cores, (∀ r ∈ p.2.queue ++ p.2.stores, r.t ≠ t) ∧ (∀ q ∈ p.2.atoms, q.t ≠ t) ∧ (∀ q ∈ p.2.reds, q.t ≠ t) ∧
    (∀ e ∈ p.2.redos, e.slot ≠ slot) ∧
    ∀ q ∈ p.2.freqs, ∀ c ∈ s.cohorts, c.1 = q.c → ∀ g ∈ s.groups, g.1 = c.2.grp → g.2.slot ≠ slot) ∧
  (∀ p ∈ s.slices, ∀ e ∈ p.2.redo, e.slot ≠ slot) ∧ (s.tenant t).area = none

/-! ## Decoding and the step -/

/-- The code word at a virtual address, as memory holds it (R63): no instruction cache of the core holds its line. -/
def wordInMemory (s : State) (core t va : Nat) (xl : Xlat) : Prop :=
  (s.core core).sic.find? (fun l => l.t == t && l.va == va / 64 * 64) = none ∧ checkAccess s core t va 4 4 .fetch = .ok xl ∧
  xl.pa % 64 = va % 64 ∧ rangeBad s xl.pa 4 = false ∧ cutOff s xl.pa = false

/-- What fetching code changes: the instruction caches, the counts of misses, the requests that left the module, and how many free
values have been drawn. -/
def FetchedBy (s t : State) : Prop :=
  t = { s with cores := t.cores, tenants := t.tenants, sysOut := t.sysOut, link := t.link, draw := t.draw } ∧
  (∀ k, t.core k = { s.core k with sic := (t.core k).sic, lic := (t.core k).lic }) ∧
  (∀ k, t.tenant k = { s.tenant k with caps := (t.tenant k).caps }) ∧ t.link = { s.link with out := t.link.out }

/-- The step is the instruction's: what it gives, with the issue slot taken where it gives a next state. -/
def Issues (s u : State) (r : List Move) (c : Nat) (lane : Bool) (i : Instr) : Prop :=
  (∀ t, exec i u = .next t → step s = .next (tookSlot { s with agenda := r } t c lane)) ∧
  ((∀ t, exec i u ≠ .next t) → step s = exec i u)

/-- The host has not trained, or the event is not the host's: whether an event of the agenda takes place (R462). -/
def mayOccur (s : State) (i : Instr) : Prop :=
  isEvent i = true ∧ s.powered = true ∧ (hostEvent i = true → 4 ≤ s.anvil.step ∧ s.anvil.fail = 0)

end Sys2Proof.Slice0

open Sys2Proof.Slice0

/-- R292: each register form of two sources and of one, and SEL, which reads d before it writes it, writes d with its result, every
flag and every other register and byte kept. -/
def Obligations.RegisterFormsWriteTheirResult : Prop :=
  (∀ p ∈ forms3, ∀ (s : State) (x : Ctx) (d a b : SReg), Runs s x → scalarReady x (useOf d [a, b]) = true →
    WritesRegs s x (p.1 d a b) [(d.toNat, p.2 (x.co.reg a.toNat) (x.co.reg b.toNat))] 1) ∧
  (∀ p ∈ forms2, ∀ (s : State) (x : Ctx) (d a : SReg), Runs s x → scalarReady x (useOf d [a]) = true →
    WritesRegs s x (p.1 d a) [(d.toNat, p.2 (x.co.reg a.toNat))] 1) ∧
  (∀ (s : State) (x : Ctx) (d a b : SReg), Runs s x → scalarReady x (useOf d [d, a, b]) = true →
    WritesRegs s x (.sel d a b)
      [(d.toNat, if x.co.reg d.toNat = 0 then x.co.reg b.toNat else x.co.reg a.toNat)] 1)

/-- R292, R293: the immediate forms, LI, LIX and ADDIX; ADD64, SUB64 and ADDA on pairs, modulo 2^64. -/
def Obligations.ImmediateAndPairFormsWriteTheirResult : Prop :=
  (∀ p ∈ formsImm, ∀ (s : State) (x : Ctx) (d a : SReg) (imm : BitVec 13), Runs s x → scalarReady x (useOf d [a]) = true →
    WritesRegs s x (p.1 d a imm) [(d.toNat, p.2 (x.co.reg a.toNat) imm.toInt)] 1) ∧
  (∀ p ∈ formsShift, ∀ (s : State) (x : Ctx) (d a : SReg) (n : BitVec 5), Runs s x → scalarReady x (useOf d [a]) = true →
    WritesRegs s x (p.1 d a n) [(d.toNat, p.2 (x.co.reg a.toNat) n.toNat)] 1) ∧
  (∀ (s : State) (x : Ctx) (d : SReg) (imm : BitVec 13), Runs s x → scalarReady x (useOf d []) = true →
    WritesRegs s x (.li d imm) [(d.toNat, BitVec.ofInt 32 imm.toInt)] 1) ∧
  (∀ (s : State) (x : Ctx) (d : SReg) (ext : Word), Runs s x → scalarReady x (useOf d [] 2) = true →
    WritesRegs s x (.lix d ext) [(d.toNat, ext)] 2) ∧
  (∀ (s : State) (x : Ctx) (d a : SReg) (ext : Word), Runs s x → scalarReady x (useOf d [a] 2) = true →
    WritesRegs s x (.addix d a ext) [(d.toNat, BitVec.ofNat 32 ((x.co.reg a.toNat).toNat + ext.toNat))] 2) ∧
  (∀ (s : State) (x : Ctx) (d a b : SReg), Runs s x → scalarReady x (usePairs d [a, b]) = true →
    WritesRegs s x (.add64 d a b) (inPair d ((pairNat x.co a + pairNat x.co b) % 2 ^ 64)) 1 ∧
    WritesRegs s x (.sub64 d a b) (inPair d ((pairNat x.co a + 2 ^ 64 - pairNat x.co b) % 2 ^ 64)) 1) ∧
  (∀ (s : State) (x : Ctx) (d a : SReg) (imm : BitVec 13), Runs s x → scalarReady x (usePairs d [a]) = true →
    WritesRegs s x (.adda d a imm) (inPair d (((pairNat x.co a : Int) + imm.toInt) % 2 ^ 64).toNat) 1)

/-- R294, R295: a load that its checks let issue leaves its destination unwritten and pending, with the value that its cohort sees:
its core's view and its own queued stores, taken as it issues (assumption 4). Before it, what must be performed before such a read is,
which leaves the machine at r (R70, R109, R458); beside that the L1D takes the line that it fills (R59), and no byte of memory and no
other register changes. -/
def Obligations.ScalarLoadsTakeTheirCoresView : Prop :=
  ∀ p ∈ loadForms, ∀ (s r : State) (x y : Ctx) (d a : SReg) (imm : BitVec 13) (xl : Xlat) (va : Nat), Runs s x →
    scalarReady x { regs := pairOf a ++ dataOf d p.2.1, reads := pairOf a, rd := true } = true → va = addrOf x.co a imm →
    va % 64 ≤ xl.pa →
    checkAccess s x.core x.t va p.2.1 p.2.1 .read = .ok xl →
    r = beforeRead s x.core x.t x.c false xl.mt ((List.range p.2.1).map (xl.pa + ·)) → Became r x y →
    ((serves r x va xl p.2.1).isSome = true ∨ (rangeBad r xl.pa p.2.1 = false ∧ cutOff r xl.pa = false)) →
    CompletesFrom s (asks r x va xl p.2.1) y (p.1 d a imm)
      { y.co with pend := y.co.pend ++ [loadPending r x va xl d p.2.1
          (loaded p.2.2 d p.2.1 (leNat (loadSees r x va xl p.2.1)))] }
      (afterLoad r x va xl p.2.1) x.g

/-- R294, R60, R111: a store that its checks let issue is the last of its cohort's store queue, at the address that its pair and its
immediate give: its cohort then sees its bytes there and every other byte as before, every other cohort of the core what it saw, and
memory itself waits. The oldest store of a cohort's queue, where nothing holds it back, then leaves it as the last of its core's store
order, and updates the L1D. -/
def Obligations.ScalarStoresEnterTheStoreOrder : Prop :=
  (∀ p ∈ storeForms, ∀ (s : State) (x : Ctx) (d a : SReg) (imm : BitVec 13) (xl : Xlat), Runs s x →
    scalarReady x { regs := pairOf a ++ dataOf d p.2, reads := pairOf a ++ dataOf d p.2, wr := true } = true →
    checkAccess s x.core x.t (addrOf x.co a imm) p.2 p.2 .write = .ok xl →
    CompletesFrom s (seeks s x [addrOf x.co a imm]) x (p.1 d a imm) x.co
        (queued (s.core x.core) x.c x.t xl.mt (cellsOf xl.pa (leBytes p.2 (dataNat x.co d p.2)))) x.g ∧
      ∀ t, exec (p.1 d a imm) s = .next t → ∀ b,
        cohortByte t (t.core x.core) x.c b =
          storedByte xl.pa p.2 (dataNat x.co d p.2) b (cohortByte s (s.core x.core) x.c b) ∧
        ∀ c, c ≠ x.c → cohortByte t (t.core x.core) c b = cohortByte s (s.core x.core) c b) ∧
  (∀ (s : State) (core c : Nat) (q : StoreReq) (r : List StoreReq) (rest : List Move), s.agenda = .storeOut core c :: rest →
    queuedBy (s.core core) c = q :: r → staysQueued s (s.core core) q = false → q.fill = false →
    ∃ t, step s = .next t ∧ t = { s with agenda := rest, cores := t.cores } ∧ (∀ k, k ≠ core → t.core k = s.core k) ∧
      t.core core = { s.core core with
        queue := (s.core core).queue.erase q, stores := (s.core core).stores ++ [q],
        l1d := (s.core core).l1d.map (fun e => { e with
          bytes := (List.range 64).map (fun i => (lastCell q.cells (e.pa + i)).getD (e.bytes.getD i 0)) }) })

/-- R296, R48, R49: LDSP of each minor writes its destination, at once, with what the scratchpad holds at zext(s[a]) + zext(s[b]);
STSP of each minor stores to the scratchpad of its group, and to nothing else. What its cohort has sent before goes forward first,
inside the step, which leaves the machine at r: the model's reading of R110 and R111 (assumption 66). -/
def Obligations.ScratchpadAccessesTakeEffectAtOnce : Prop :=
  (∀ p ∈ ldspForms, ∀ (s : State) (x : Ctx) (d a b : SReg), Runs s x →
    scalarReady x { regs := a.toNat :: b.toNat :: dataOf d p.2.1, reads := [a.toNat, b.toNat], rd := true } = true →
    ((x.co.reg a.toNat).toNat + (x.co.reg b.toNat).toNat) % p.2.1 = 0 →
    (x.co.reg a.toNat).toNat + (x.co.reg b.toNat).toNat + p.2.1 ≤ x.node.spsz →
    x.g.rangeBad 0 ((x.co.reg a.toNat).toNat + (x.co.reg b.toNat).toNat) p.2.1 = false →
    WritesRegs s x (.ldsp d a b p.1)
      (loaded p.2.2 d p.2.1 (leNat (bytesAt x.g.sp ((x.co.reg a.toNat).toNat + (x.co.reg b.toNat).toNat) p.2.1))) 1) ∧
  (∀ m ∈ [(0 : BitVec 7), 1, 2, 3], ∀ (s r : State) (x y : Ctx) (d a b : SReg), Runs s x →
    scalarReady x { regs := a.toNat :: b.toNat :: dataOf d (2 ^ m.toNat), reads := a.toNat :: b.toNat :: dataOf d (2 ^ m.toNat),
                    wr := true } = true →
    r = settleCtx s x → Became r x y →
    ((x.co.reg a.toNat).toNat + (x.co.reg b.toNat).toNat) % 2 ^ m.toNat = 0 →
    (x.co.reg a.toNat).toNat + (x.co.reg b.toNat).toNat + 2 ^ m.toNat ≤ x.node.spsz →
    ∃ g, CompletesFrom s r y (.stsp d a b m) y.co (r.core x.core) g ∧ g = { x.g with sp := g.sp, bad := g.bad } ∧
      StoredAt x.g.sp g.sp ((x.co.reg a.toNat).toNat + (x.co.reg b.toNat).toNat) (2 ^ m.toNat) (dataNat x.co d (2 ^ m.toNat)))

/-- R297, R298: an ATOM that its checks let issue leaves its destination pending and is sent, with its operands, to its home slice; the
L1D loses the line, and memory is unchanged until the slice performs it. LDO is a join point that reads past the L1D, after what
must be performed before such a read (q), and is an acquire at its scope: later accesses wait for its return (R114); its kind AR
first releases at that scope, which leaves the machine at r. STO is a join point and a release at its scope, which leaves the
machine at r, and then stores; its kind AR has performed the store itself where it ends. That LDO's value is the one at its issue, that
a release and AR's store are performed within the step, and that earlier overlapping accesses are performed first, are the model's
readings (assumptions 4, 5, 48, 21). -/
def Obligations.OrderedAccessesTakeEffect : Prop :=
  (∀ (s : State) (x : Ctx) (d a b : SReg) (w64 : Bool) (code : BitVec 4) (n : Nat) (rd : List Nat) (xl : Xlat), Runs s x →
    n = (if w64 then 8 else 4) → rd = pairOf a ++ dataOf b n ++ (if code = 9 then dataOf d n else []) →
    scalarReady x { regs := rd ++ dataOf d n, reads := rd, rd := true, wr := true } = true →
    checkAccess s x.core x.t (pairNat x.co a) n n .readWrite = .ok xl → xl.mt ≠ 2 → xl.pa / 2 ^ 50 ≠ 1 →
    CompletesFrom s (seeks s x [pairNat x.co a]) x (.atom d a b w64 code)
      { x.co with pend := x.co.pend ++ [{ loadPending s x (pairNat x.co a) xl d n [] with waits := 1, rmw := true }] }
      { s.core x.core with
          l1d := (s.core x.core).l1d.filter (fun l => l.pa != xl.pa / 64 * 64), seq := (s.core x.core).seq + 1,
          atoms := (s.core x.core).atoms ++ [{
            c := x.c, tag := s.fresh, t := x.t, pa := xl.pa, va := BitVec.ofNat 64 (pairNat x.co a), code := code.toNat, w64 := w64,
            a := BitVec.ofNat 64 (dataNat x.co (if code = 9 then d else b) n), b := BitVec.ofNat 64 (dataNat x.co b n),
            keys := dataOf d n, seq := (s.core x.core).seq }] } x.g) ∧
  (∀ (s r q : State) (x y : Ctx) (d a : SReg) (scope : BitVec 3) (w64 : Bool) (kind : BitVec 2) (n : Nat) (xl : Xlat), Runs s x →
    n = (if w64 then 8 else 4) → (kind = 1 ∨ kind = 3) → scope.toNat ≤ 5 →
    scalarReady x { regs := pairOf a ++ dataOf d n, reads := pairOf a, join := true, rd := true } = true →
    checkAccess s x.core x.t (pairNat x.co a) n n .read = .ok xl →
    (kind = 1 → r = s) → (kind = 3 → x.co.pend = [] ∧ release s x.core x.t x.c scope.toNat = some r) →
    q = beforeRead (acquire r x.core scope.toNat) x.core x.t x.c false xl.mt ((List.range n).map (xl.pa + ·)) → Became q x y →
    rangeBad q xl.pa n = false → cutOff q xl.pa = false →
    CompletesFrom s (leaves (seeks q x [pairNat x.co a]) x.t xl.pa n []) y (.ldo d a scope w64 kind)
      { y.co with pend := y.co.pend ++ [{ loadPending q x (pairNat x.co a) xl d n
          (loaded false d n (leNat (withOwn q x xl.pa (coreRead q x.core xl.pa n)))) with acq := true }] }
      { q.core x.core with l1d := (q.core x.core).l1d.filter (fun l => l.pa != xl.pa / 64 * 64) } x.g) ∧
  (∀ (s r : State) (x y : Ctx) (d a : SReg) (scope : BitVec 3) (w64 : Bool) (kind : BitVec 2) (n : Nat) (xl : Xlat), Runs s x →
    n = (if w64 then 8 else 4) → scope.toNat ≤ 5 →
    scalarReady x { regs := pairOf a ++ dataOf d n, reads := pairOf a ++ dataOf d n, join := true, wr := true } = true →
    checkAccess s x.core x.t (pairNat x.co a) n n .write = .ok xl → release s x.core x.t x.c scope.toNat true = some r →
    Became r x y →
    (kind = 2 → CompletesFrom s (seeks r x [pairNat x.co a]) y (.sto d a scope w64 kind) y.co
      (queued (r.core x.core) x.c x.t xl.mt (cellsOf xl.pa (leBytes n (dataNat x.co d n)))) x.g) ∧
    (kind = 3 → nothingOut (r.core x.core) x.c →
      (∀ e ∈ (r.core x.core).stores, e.c ≠ x.c ∧ meets e.cells ((List.range n).map (xl.pa + ·)) = false) →
      plainTarget r ((List.range n).map (xl.pa + ·)) →
      ∃ t co, exec (.sto d a scope w64 kind) s = .next t ∧ lookup t.cohorts x.c = some co ∧ Moved y.co co 1 ∧
        ∀ b, readByte t b = storedByte xl.pa n (dataNat x.co d n) b (readByte r b)))

/-- R299, R303: BR, JR and the conditional branches go to their target where they are taken, which ends each loop that the target
leaves, and else move past themselves. R305: BTAB calls the least target that some served lane chooses, with the mask of its lanes in
s[d+1], and goes on past its list when no lane is left; the choices are those of the P planes from s[a] on. -/
def Obligations.BranchesAndBtabTransferControl : Prop :=
  (∀ (s : State) (x : Ctx) (off : BitVec 25), Runs s x → scalarReady x {} = true →
    Transfers s x (.br off) x.co (goal x.co off) (loopsAfter x.co.loops (goal x.co off))) ∧
  (∀ (s : State) (x : Ctx) (a : SReg), Runs s x → scalarReady x { regs := [a.toNat], reads := [a.toNat] } = true →
    (x.co.reg a.toNat).toNat % 4 = 0 →
    Transfers s x (.jr a) x.co (x.co.reg a.toNat) (loopsAfter x.co.loops (x.co.reg a.toNat))) ∧
  (∀ p ∈ branchForms, ∀ (s : State) (x : Ctx) (a b : SReg) (off : BitVec 13), Runs s x →
    scalarReady x { regs := [a.toNat, b.toNat], reads := [a.toNat, b.toNat] } = true →
    (p.2 (x.co.reg a.toNat) (x.co.reg b.toNat) = true →
      Transfers s x (p.1 a b off) x.co (goal x.co off) (loopsAfter x.co.loops (goal x.co off))) ∧
    (p.2 (x.co.reg a.toNat) (x.co.reg b.toNat) = false → Leaves s x (p.1 a b off) x.co)) ∧
  (∀ (s : State) (x : Ctx) (a : SReg) (off : BitVec 13), Runs s x →
    scalarReady x { regs := [a.toNat], reads := [a.toNat] } = true →
    (x.co.reg a.toNat = 0 →
      Transfers s x (.bz a off) x.co (goal x.co off) (loopsAfter x.co.loops (goal x.co off)) ∧ Leaves s x (.bnz a off) x.co) ∧
    (x.co.reg a.toNat ≠ 0 →
      Transfers s x (.bnz a off) x.co (goal x.co off) (loopsAfter x.co.loops (goal x.co off)) ∧ Leaves s x (.bz a off) x.co)) ∧
  (∀ (s : State) (x : Ctx) (d a : SReg) (list : List (BitVec 25)) (planes : Nat) (choice : Nat → Nat) (act : Word), Runs s x →
    (2 ^ planes < 2 * list.length ∨ planes = 0) → list.length ≤ 2 ^ planes → 0 < list.length → list.length ≤ 64 →
    act = x.co.reg d.toNat &&& x.co.live →
    (∀ l, choice l = ((List.range planes).map (fun p => if (x.co.reg (a.toNat + p)).getLsbD l then 2 ^ p else 0)).sum) →
    scalarReady x { regs := pairOf d ++ (List.range planes).map (a.toNat + ·),
                    reads := d.toNat :: (List.range planes).map (a.toNat + ·), len := 1 + list.length } = true →
    (act = 0 → Transfers s x (.btab d a list) x.co (x.co.spc + BitVec.ofNat 32 (4 * (1 + list.length)))
      (loopsAfter x.co.loops (x.co.spc + BitVec.ofNat 32 (4 * (1 + list.length))))) ∧
    (∀ n, (∃ l < 32, act.getLsbD l = true ∧ choice l = n) → (∀ l < 32, act.getLsbD l = true → n ≤ choice l ∧ choice l < list.length) →
      x.co.retDepth < 8 →
      ∃ t co m, exec (.btab d a list) s = .next t ∧ OnlyCohort s t x.c co ∧
        (∀ l < 32, m.getLsbD l = (act.getLsbD l && decide (choice l = n))) ∧
        (∀ r, co.reg r = if r = d.toNat then act &&& ~~~m else if r = d.toNat + 1 then m else x.co.reg r) ∧
        WentTo { x.co with s := co.s, badS := co.badS, ret := x.co.spc :: x.co.ret, retDepth := x.co.retDepth + 1 } co
          (goal x.co (list.getD n 0)) x.co.loops))

/-- R300, R67: CALL pushes SPC + 4 and goes to its target, RET pops and goes to what it pops, and neither ends a loop. The ninth
entry and those above it pass through the private slot: a push stores the oldest of the 8 on-core entries there, at spillVa, and a pop
from above 8 entries loads the youngest of those back, as what its cohort sees there. -/
def Obligations.CallPushesAndRetPops : Prop :=
  (∀ (s : State) (x : Ctx) (off : BitVec 25), Runs s x → scalarReady x {} = true → x.co.retDepth < 8 →
    Transfers s x (.call off) { x.co with ret := (x.co.spc + 4) :: x.co.ret, retDepth := x.co.retDepth + 1 }
      (goal x.co off) x.co.loops) ∧
  (∀ (s : State) (x : Ctx) (off : BitVec 25) (xl : Xlat), Runs s x → scalarReady x {} = true → 8 ≤ x.co.retDepth →
    x.co.retDepth < 264 → checkAccess s x.core x.t (spillVa x (x.co.retDepth - 8)) 8 8 .write = .ok xl →
    ∃ t co, exec (.call off) s = .next t ∧
      OnlyLocal (seeks s x [spillVa x (x.co.retDepth - 8)]) t x co
        (queued (s.core x.core) x.c x.t xl.mt (cellsOf xl.pa (leBytes 8 (x.co.ret.getD 7 0).toNat))) x.g ∧
      WentTo { x.co with ret := (x.co.spc + 4) :: x.co.ret.take 7, retDepth := x.co.retDepth + 1 } co (goal x.co off) x.co.loops) ∧
  (∀ (s : State) (x : Ctx), Runs s x → scalarReady x {} = true → 0 < x.co.retDepth → x.co.retDepth ≤ 8 →
    Transfers s x .ret { x.co with ret := x.co.ret.drop 1, retDepth := x.co.retDepth - 1,
                                   stub := if x.co.stub = some (x.co.retDepth - 1) then none else x.co.stub }
      (x.co.ret.headD 0) x.co.loops) ∧
  (∀ (s r : State) (x y : Ctx) (xl : Xlat) (va e : Nat), Runs s x → scalarReady x {} = true → 8 < x.co.retDepth → x.co.retDepth ≤ 264 →
    va = spillVa x (x.co.retDepth - 9) → va % 64 ≤ xl.pa → checkAccess s x.core x.t va 8 8 .read = .ok xl →
    r = beforeRead s x.core x.t x.c false xl.mt (span xl.pa 8) → Became r x y →
    ((serves r x va xl 8).isSome = true ∨ (rangeBad r xl.pa 8 = false ∧ cutOff r xl.pa = false)) →
    e = leNat ((loadSees r x va xl 8).take 4) → e % 4 = 0 →
    ∃ t co, exec .ret s = .next t ∧ OnlyLocal (asks r x va xl 8) t y co (afterLoad r x va xl 8) x.g ∧
      WentTo { y.co with ret := (x.co.ret.drop 1).take 7 ++ [BitVec.ofNat 32 e], retDepth := x.co.retDepth - 1,
                         stub := if x.co.stub = some (x.co.retDepth - 1) then none else x.co.stub } co (x.co.ret.headD 0) x.co.loops)

/-- R301, R303: LOOP sets its loop up, or skips the body when the count is 0; LOOPX ends its loop. R302: where a loop ends at an
instruction that makes no taken transfer, here NOP, its count falls and control goes back to its start, or its last iteration
ends; loop 1 is the inner one. -/
def Obligations.LoopsAreSetUpRunAndEnded : Prop :=
  (∀ (s : State) (x : Ctx) (k : BitVec 1) (c : SReg) (off : BitVec 18) (lp : LoopRegs) (le : Word), Runs s x →
    scalarReady x { regs := [c.toNat], reads := [c.toNat] } = true → le = BitVec.ofNat 32 (x.co.spc.toNat + 4 * off.toNat) →
    lp = (if k = 0 then { x.co.loops with ls0 := x.co.spc + 4, le0 := le, lc0 := x.co.reg c.toNat }
          else { x.co.loops with ls1 := x.co.spc + 4, le1 := le, lc1 := x.co.reg c.toNat }) →
    (x.co.reg c.toNat = 0 → Transfers s x (.loop k c off) { x.co with loops := lp } (le + 4) (loopsAfter lp (le + 4))) ∧
    (x.co.reg c.toNat ≠ 0 → Leaves s x (.loop k c off) { x.co with loops := lp })) ∧
  (∀ (s : State) (x : Ctx) (k : BitVec 1), Runs s x → scalarReady x {} = true →
    Leaves s x (.loopx k) { x.co with loops := if k = 0 then { x.co.loops with lc0 := 0 } else { x.co.loops with lc1 := 0 } }) ∧
  (∀ (s : State) (x : Ctx), Runs s x → scalarReady x {} = true → ∃ t co, exec .nop s = .next t ∧ OnlyCohort s t x.c co ∧ Moved x.co co 1 ∧
    (x.co.loops.le1 = x.co.spc → 1 < x.co.loops.lc1.toNat →
      co.spc = x.co.loops.ls1 ∧ co.loops = { x.co.loops with lc1 := x.co.loops.lc1 - 1 }) ∧
    ((x.co.loops.le1 ≠ x.co.spc ∨ x.co.loops.lc1 = 0) → x.co.loops.le0 = x.co.spc → 1 < x.co.loops.lc0.toNat →
      co.spc = x.co.loops.ls0 ∧ co.loops = { x.co.loops with lc0 := x.co.loops.lc0 - 1 }) ∧
    (x.co.loops.le1 = x.co.spc → x.co.loops.lc1 = 1 → (x.co.loops.le0 ≠ x.co.spc ∨ x.co.loops.lc0 = 0) →
      co.spc = x.co.spc + 4 ∧ co.loops = { x.co.loops with lc1 := 0 }) ∧
    ((x.co.loops.le1 ≠ x.co.spc ∨ x.co.loops.lc1 = 0) → x.co.loops.le0 = x.co.spc → x.co.loops.lc0 = 1 →
      co.spc = x.co.spc + 4 ∧ co.loops = { x.co.loops with lc0 := 0 }) ∧
    (x.co.loops.le1 = x.co.spc → x.co.loops.lc1 = 1 → x.co.loops.le0 = x.co.spc → 1 < x.co.loops.lc0.toNat →
      co.spc = x.co.loops.ls0 ∧ co.loops = { x.co.loops with lc0 := x.co.loops.lc0 - 1, lc1 := 0 }) ∧
    (x.co.loops.le1 = x.co.spc → x.co.loops.lc1 = 1 → x.co.loops.le0 = x.co.spc → x.co.loops.lc0 = 1 →
      co.spc = x.co.spc + 4 ∧ co.loops = { x.co.loops with lc0 := 0, lc1 := 0 }))

/-- R287: NOP has no effect, and YIELD makes its cohort the youngest of its class; R289, R290: LWAIT completes where no lane word
and no lane result is outstanding; FENCE is a release and an acquire as its kind says, and a release, performed within the step
(assumption 5), leaves the machine at r. -/
def Obligations.SynchronisingInstructionsComplete : Prop :=
  (∀ (s : State) (x : Ctx), Runs s x → scalarReady x {} = true →
    Leaves s x .nop x.co ∧ Leaves s x .yield { x.co with age := s.clk }) ∧
  (∀ (s : State) (x : Ctx), Runs s x → scalarReady x { join := true } = true → (∀ p ∈ x.co.pend, p.scalar = true) →
    Leaves s x .lwait x.co) ∧
  (∀ (s r : State) (x y : Ctx) (scope kind : BitVec 6), Runs s x → scalarReady x { join := true } = true →
    scope.toNat ≤ 5 → (kind = 1 ∨ kind = 2 ∨ kind = 3) → (kind ≠ 2 → x.co.pend = []) → (kind = 1 → r = s) →
    (kind ≠ 1 → release s x.core x.t x.c scope.toNat (decide (kind = 2)) = some r) → Became r x y →
    CompletesFrom s r y (.fence scope kind) y.co { r.core x.core with
        l1d := if kind ≠ 2 ∧ 2 ≤ scope.toNat then [] else (r.core x.core).l1d } x.g)

/-- R113, R123, R78: a release of a cohort at any scope leaves no reduction and no keyed addition of the cohort unperformed; at .DIE or
wider it performs every atomic and every store that the cohort has issued, every future request that no slice holds, and every store of
its core, those to other packages having been acknowledged. That it performs all of them inside its step, the stores of other cohorts of
its core too, is the model's reading of R113 (assumption 5), as is that a write to another package is performed when it is acknowledged
(assumption 22). -/
def Obligations.AReleasePerformsWhatItCovers : Prop :=
  (∀ (s r : State) (core t c scope : Nat) (fifo : Bool), release s core t c scope fifo = some r →
    (∀ q ∈ (r.core core).reds, q.c ≠ c) ∧ (r.core core).redos.all (fun q => q.c != c) = true) ∧
  (∀ (s r : State) (core t c scope n : Nat) (fifo : Bool), n = (s.core core).seq → 2 ≤ scope →
    release s core t c scope fifo = some r →
    (∀ w ∈ (r.core core).queue, w.c = c → n ≤ w.seq) ∧ (∀ q ∈ (r.core core).atoms, q.c = c → n ≤ q.seq) ∧
    (∀ q ∈ (r.core core).freqs, q.c = c → q.away = true ∨ n ≤ q.seq) ∧
    (r.core core).stores = [] ∧ ∀ q ∈ (r.core core).reds, remotePa s q.pa = false)

/-- R286, R282, R285, R7, R8: GETR writes s[d] with the special register: its value, for CYCLE the low half of the clock whose high half
it latches in CYCLEH. SETR writes the bits that the special register has and keeps every other register; one that is read-only
keeps its value. -/
def Obligations.SpecialRegistersAreReadAndWritten : Prop :=
  (∀ p ∈ specials, ∀ (s : State) (x : Ctx) (d : SReg), Runs s x →
    scalarReady x { regs := [d.toNat], join := p.1 == 1 } = true → WritesRegs s x (.getr d p.1) [(d.toNat, p.2.2.1 x.co)] 1) ∧
  (∀ (s : State) (x : Ctx) (d : SReg), Runs s x → scalarReady x { regs := [d.toNat] } = true →
    (∀ p ∈ readOnly x, WritesRegs s x (.getr d p.1) [(d.toNat, p.2)] 1) ∧
    ∃ t co, exec (.getr d 15) s = .next t ∧ OnlyCohort s t x.c co ∧
      WroteRegs { x.co with cycleh := BitVec.ofNat 32 (s.clk / 2 ^ 32) } co [(d.toNat, BitVec.ofNat 32 s.clk)] 1) ∧
  (∀ p ∈ specials, ∀ (s : State) (x : Ctx) (a : SReg), Runs s x →
    scalarReady x { regs := [a.toNat], reads := [a.toNat], join := p.1 == 1 } = true →
    Leaves s x (.setr a p.1) (p.2.2.2 x.co (x.co.reg a.toNat &&& p.2.1))) ∧
  (∀ (s : State) (x : Ctx) (a : SReg) (ix : BitVec 6), Runs s x → scalarReady x { regs := [a.toNat], reads := [a.toNat] } = true →
    14 ≤ ix.toNat → ix.toNat < 22 → Leaves s x (.setr a ix) x.co)

/-- R306, R169, R253: LANE queues its block, with the mask, the copies of s0 to s15, MODE and FPE, and a pending-export mark for each
register that a word of the block exports to; a mask of 0 queues nothing. Its words come from the lane instruction cache or from memory,
which leaves the machine at r: but for the cache, and for what it asks of other packages or of system space, nothing differs there. When words are fetched and what a
miss asks for are the model's readings (assumptions 6, 81). -/
def Obligations.LaneQueuesItsBlock : Prop :=
  ∀ (s : State) (x : Ctx) (a : SReg) (len : BitVec 6) (index : Word), Runs s x →
    scalarReady x { regs := [a.toNat], reads := [a.toNat], len := 2 } = true →
    (x.co.reg a.toNat &&& x.co.live = 0 → Leaves s x (.lane a len index) x.co 2) ∧
    (x.co.reg a.toNat &&& x.co.live ≠ 0 → x.co.laneQ.length < 4 → (∀ r < 16, x.co.busyReg r = false ∧ x.co.badS.contains r = false) →
      ∀ r ws, blockWords x (len.toNat + 1) s index.toNat = (r, [], ws) →
      ∃ marks, CompletesFrom s r x (.lane a len index)
        { x.co with laneQ := x.co.laneQ ++ [⟨ws, 0, x.co.reg a.toNat &&& x.co.live, (List.range 16).map x.co.reg, x.co.mode,
            x.co.fpe, x.co.spc, marks, some ((x.node.lbase + 12 * index.toNat) % 2 ^ 64)⟩] }
        { s.core x.core with lic := (r.core x.core).lic } x.g 2 ∧
        (∀ (i g : Nat), (i, g) ∈ marks ↔ ∃ w n, ws[i]? = some w ∧ lanesExport w = some n ∧ ∃ j < n, g = (laneFields w).d.toNat + j) ∧
        (∀ k, k ≠ x.core → r.core k = s.core k) ∧ SameTenants s r ∧
        r = { s with cores := r.cores, tenants := r.tenants, link := r.link, sysOut := r.sysOut })

/-- R311, R312, R310, R126: BAR.INIT, BAR.ARRIVE, BAR.DROP and BAR.EXPECT on an object in the allocation that does not refuse them.
BAR.WAIT completes where its phase has, as an acquire, and else parks its cohort; BAR.TEST answers 1 with the same acquire there,
and else 0 with no ordering. What goes forward before an operation at the object, which the model performs within its step (assumptions 66
and 5), leaves the machine at r. -/
def Obligations.BarrierObjectsCountAndWait : Prop :=
  (∀ (s r : State) (x y : Ctx) (d a b : SReg) (off : Nat), Runs s x → barReady s x d a [b.toNat] off →
    0 < (x.co.reg b.toNat).toNat → (x.co.reg b.toNat).toNat ≤ 65535 → r = settleCtx s x → Became r x y →
    ∃ g, CompletesReg s r y (.barInit d a b) [(d.toNat, 0)] (r.core x.core) g ∧
      g = { x.g with sp := g.sp, bad := g.bad, port := g.port } ∧
      readBar g off = ⟨0, (x.co.reg b.toNat).toNat, 0, 0, 0, 0xFFFF, 0xFFFF, 0, 0, 1, 1⟩ ∧
      (∀ k, (k < off ∨ off + 32 ≤ k) → get 0 g.sp k = get 0 x.g.sp k)) ∧
  (∀ (s r : State) (x y : Ctx) (d a : SReg) (scope : BitVec 6) (off : Nat) (o : Bar), Runs s x → barReady s x d a [] off →
    x.g.rangeBad 0 off 32 = false → 1 ≤ scope.toNat → scope.toNat ≤ 5 → o = readBar x.g off → ¬ (o.arr = o.expa ∧ o.landb < o.expb) →
    release s x.core x.t x.c scope.toNat = some r → Became r x y →
    (∃ g, CompletesReg s r y (.barArrive d a scope) [(d.toNat, BitVec.ofNat 32 o.phase)] (r.core x.core) g ∧
      Settles x.g g off x.co.ix (arrived o scope.toNat)) ∧
    (o.expa ≠ o.drops + 1 → ∃ g,
      CompletesReg s r y (.barDrop d a scope) [(d.toNat, BitVec.ofNat 32 o.phase)] (r.core x.core) g ∧
      Settles x.g g off x.co.ix { arrived o scope.toNat with drops := (o.drops + 1) % 65536 })) ∧
  (∀ (s r : State) (x y : Ctx) (d a b : SReg) (off : Nat) (o : Bar), Runs s x → barReady s x d a [b.toNat] off →
    x.g.rangeBad 0 off 32 = false → o = readBar x.g off → o.expb + (x.co.reg b.toNat).toNat ≤ 2 ^ 32 - 1 →
    r = settleCtx s x → Became r x y →
    ∃ g, CompletesReg s r y (.barExpect d a b) [(d.toNat, BitVec.ofNat 32 o.phase)] (r.core x.core) g ∧
      Settles x.g g off x.co.ix { o with expb := o.expb + (x.co.reg b.toNat).toNat }) ∧
  (∀ (s : State) (x : Ctx) (d a b : SReg) (off : Nat) (port : List (Nat × Nat × Nat)), Runs s x →
    barReady s x d a [b.toNat] off true → x.g.rangeBad 0 off 32 = false → port = (x.g.portUsed off s.clk x.co.ix).port →
    (phasePast (readBar x.g off).phase (x.co.reg b.toNat) →
      CompletesReg s s x (.barWait d a b) [(d.toNat, BitVec.ofNat 32 (readBar x.g off).phase)]
        (barAcquired (s.core x.core) (readBar x.g off) (x.co.reg b.toNat)) { waitsDropped x.g x.co.ix with port := port } ∧
      CompletesReg s s x (.barTest d a b) [(d.toNat, 1)]
        (barAcquired (s.core x.core) (readBar x.g off) (x.co.reg b.toNat)) { x.g with port := port }) ∧
    (¬ phasePast (readBar x.g off).phase (x.co.reg b.toNat) →
      CompletesReg s s x (.barTest d a b) [(d.toNat, 0)] (s.core x.core) { x.g with port := port } ∧
      (x.g.save = false → ∃ t, exec (.barWait d a b) s = .next t ∧
        lookup t.cohorts x.c = some { x.co with
          park := some (.barrier off (x.co.reg b.toNat)), parkAt := s.clk, waitS := 0, liftS := false } ∧
        ∃ w ∈ ((lookup t.groups x.co.grp).getD x.g).waits, w.agent = x.co.ix ∧ w.off = off ∧ w.phase = x.co.reg b.toNat)))

/-- R315, R416: SAFE reads its entry, whose 64 bytes pass every check, and takes its anchor: it is the cohort's last safe point, and
the safe gap is 0; where a save waits for its group, it is held there (R427). -/
def Obligations.SafeTakesTheAnchor : Prop :=
  ∀ (s : State) (x : Ctx) (n : BitVec 10) (xl : Xlat) (b : List Byte) (e : SafeEntry), Runs s x →
    scalarReady x { join := true, safe := true } = true → x.g.halt = none → x.co.handler = false → n.toNat < x.node.nsafe →
    checkAccess s x.core x.t ((x.node.spt + 64 * n.toNat) % 2 ^ 64) 64 1 .read = .ok xl →
    rangeBad s xl.pa 64 = false → cutOff s xl.pa = false → b = withOwn s x xl.pa (coreRead s x.core xl.pa 64) →
    safeBad x b = false → e = safeEntry b →
    ∃ t co, exec (.safe n) s = .next t ∧
      OnlyLocal (leaves (seeks s x [(x.node.spt + 64 * n.toNat) % 2 ^ 64]) x.t xl.pa 64 []) t x co
        { (if x.g.save then latchFreed (s.core x.core) x.c else s.core x.core) with
            l1d := (s.core x.core).l1d.filter (fun l => l.pa != xl.pa / 64 * 64) } x.g ∧
      co.gap = 0 ∧ (noLoopEnd x.co.loops x.co.spc = true → co.spc = x.co.spc + 4 ∧ co.loops = x.co.loops) ∧
      co = { x.co with
        gap := 0, spc := co.spc, loops := co.loops, waitS := 0, liftS := false, park := if x.g.save then some .saved else none,
        anchor := ⟨n.toNat, x.co.spc, e, x.co.loops, x.co.mode, x.co.fpe, x.co.depth, x.co.ids, x.co.retDepth, x.co.ret⟩ }

/-- R317: ENTER pushes its identifier and LEAVE removes the top one, where the tenant neither traces region edges nor holds the
debug right; depth stops at 65,535 and at 0, and 8 identifiers are held. -/
def Obligations.RegionEdgesMoveTheRegionStack : Prop :=
  ∀ (s : State) (x : Ctx) (id : BitVec 12), Runs s x → scalarReady x {} = true → x.g.halt = none →
    (s.tenant x.t).trctl.getLsbD 0 = false → (s.tenant x.t).right = false →
    Leaves s x (.enter id) { x.co with depth := min 65535 (x.co.depth + 1), ids := (id :: x.co.ids).take 8 } ∧
    Leaves s x .leave { x.co with depth := x.co.depth - 1, ids := x.co.ids.drop 1 }

/-- R318, R424, R419, R425: TRAP takes the exception. With a handler to be had and no other cohort's turn before it, the cohort goes
back to its anchor and enters the handler, its cause, SPC, code and s[a] recorded and s48 to s63 saved; without a handler, or in
one, its launch ends. R28, R183, R414: so do the faults of scalar instructions: of a load's or a store's address, of the scratchpad, of
the safe gap (R316) and of TRET outside a handler (R291); the instruction writes no register and no byte. R29, R30: F_PAGE parks the
cohort on its fault-ring entries instead. That the fault's place and address are recorded as it parks, and which address a private
access records, are the model's readings and choices (assumptions 17, 55). -/
def Obligations.TrapTakesTheException : Prop :=
  (∀ p ∈ loadForms, ∀ (s : State) (x : Ctx) (d a : SReg) (imm : BitVec 13), Runs s x →
    scalarReady x { regs := pairOf a ++ dataOf d p.2.1, reads := pairOf a, rd := true } = true → x.co.laneIdle = true →
    FaultsAt s x (p.1 d a imm) (addrOf x.co a imm) p.2.1 .read) ∧
  (∀ p ∈ storeForms, ∀ (s : State) (x : Ctx) (d a : SReg) (imm : BitVec 13), Runs s x →
    scalarReady x { regs := pairOf a ++ dataOf d p.2, reads := pairOf a ++ dataOf d p.2, wr := true } = true → x.co.laneIdle = true →
    FaultsAt s x (p.1 d a imm) (addrOf x.co a imm) p.2 .write) ∧
  (∀ p ∈ ldspForms, ∀ (s : State) (x : Ctx) (d a b : SReg), Runs s x →
    scalarReady x { regs := a.toNat :: b.toNat :: dataOf d p.2.1, reads := [a.toNat, b.toNat], rd := true } = true →
    x.co.laneIdle = true → FaultsIn s x (.ldsp d a b p.1) ((x.co.reg a.toNat).toNat + (x.co.reg b.toNat).toNat) p.2.1) ∧
  (∀ m ∈ [(0 : BitVec 7), 1, 2, 3], ∀ (s : State) (x : Ctx) (d a b : SReg), Runs s x →
    scalarReady x { regs := a.toNat :: b.toNat :: dataOf d (2 ^ m.toNat), reads := a.toNat :: b.toNat :: dataOf d (2 ^ m.toNat),
                    wr := true } = true →
    x.co.laneIdle = true → FaultsIn s x (.stsp d a b m) ((x.co.reg a.toNat).toNat + (x.co.reg b.toNat).toNat) (2 ^ m.toNat)) ∧
  (∀ p ∈ forms3, ∀ (s : State) (x : Ctx) (d a b : SReg), Runs s x →
    scalarReady { x with co := { x.co with gap := 0 } } (useOf d [a, b]) = true → x.node.sgap ≤ x.co.gap → x.co.laneIdle = true →
    handlerOpen s x → TakesFault s x (p.1 d a b) { code := 13, lo := BitVec.ofNat 32 x.node.sgap } 0 x.co.spc 0) ∧
  (∀ (s : State) (x : Ctx), Runs s x → scalarReady x { regs := (List.range 16).map (48 + ·), join := true } = true → handlerOpen s x →
    TakesFault s x .tret { code := 1 } 0 x.co.spc 0) ∧
  ∀ (s : State) (x : Ctx) (a : SReg) (code : BitVec 12), Runs s x → scalarReady x { regs := [a.toNat], reads := [a.toNat] } = true →
    x.co.laneIdle = true →
    (x.co.handler = false → nothingSent s x → (s.tenant x.t).thctl.getLsbD 16 = true → (s.tenant x.t).thctl.toNat % 65536 ≠ 0 →
      (∀ p ∈ s.cohorts, p.1 ≠ x.c → p.2.grp = x.co.grp → p.2.handler = false ∧ p.2.park ≠ some .handler) →
      ∃ t, exec (.trap a code) s = .next t ∧
        OnlyLocal s t x (inHandler s x 0x20 0 x.co.spc (code.setWidth 32) (x.co.reg a.toNat))
          (latchFreed (s.core x.core) x.c) (waitsDropped x.g x.co.ix)) ∧
    (x.co.handler = true → EndsLaunch s x (.trap a code) 0x20) ∧
    ((s.tenant x.t).thctl.getLsbD 16 = false ∨ (s.tenant x.t).thctl.toNat % 65536 = 0 → nothingSent s x → EndsLaunch s x (.trap a code) 0x20)

/-- R291, R426, R422: TRET, in a handler, restores s48 to s63, the code base and the anchor, and goes on at the anchor: at the entry
point where no safe point was passed, else behind the SAFE, or in its rebuild stub, whose return leads there. -/
def Obligations.TretReturnsToTheAnchor : Prop :=
  ∀ (s : State) (x : Ctx), Runs s x → scalarReady x { regs := (List.range 16).map (48 + ·), join := true } = true →
    x.co.handler = true →
    (x.co.anchor.ix = 1023 ∨ x.co.anchor.entry.stub.getLsbD 0 = false ∨ x.co.anchor.retDepth < 8) →
    ∃ t co, exec .tret s = .next t ∧ OnlyCohort s t x.c co ∧
      (∀ r, co.reg r = if 48 ≤ r ∧ r < 64 then x.co.shadow.getD (r - 48) 0 else x.co.reg r) ∧
      (x.co.anchor.ix = 1023 → co = { returned x co with stub := none, spc := x.co.anchor.spc }) ∧
      (x.co.anchor.ix ≠ 1023 → x.co.anchor.entry.stub.getLsbD 0 = false →
        co = { returned x co with stub := none, spc := x.co.anchor.spc + 4 }) ∧
      (x.co.anchor.ix ≠ 1023 → x.co.anchor.entry.stub.getLsbD 0 = true →
        co = { returned x co with
          stub := some x.co.anchor.retDepth, spc := x.co.anchor.entry.stub &&& 0xFFFFFFFC,
          retDepth := x.co.anchor.retDepth + 1, ret := (x.co.anchor.spc + 4) :: x.co.anchor.ret })

/-- R288: DONE, where nothing of the cohort is outstanding, ends the cohort and frees its private slot; with the last cohort of a
group whose programs and batches have ended, the group and its cohorts are gone. -/
def Obligations.DoneEndsTheCohort : Prop :=
  ∀ (s : State) (x : Ctx), Runs s x → scalarReady x { join := true } = true → x.g.halt = none → x.co.heldOps = [] →
    x.co.pend = [] → x.co.openOps = 0 → x.co.frep = none →
    ∃ t l, exec .done s = .next t ∧ SameBytes s t ∧ t.core x.core = latchFreed (s.core x.core) x.c ∧
      lookup t.launches x.slot = some l ∧ l = { x.l with privUsed := x.l.privUsed.filter (· != x.co.priv) } ∧
      ((x.g.loader.mode = .running ∨ x.g.storer.mode = .running ∨ x.co.lcom ≠ x.co.lcpl ∨
          ∃ p ∈ s.cohorts, p.1 ≠ x.c ∧ p.2.grp = x.co.grp ∧ p.2.ended = false) →
        lookup t.groups x.co.grp = some x.g ∧ ∃ co, lookup t.cohorts x.c = some co ∧
          Moved { x.co with ended := true, handler := false } co 1) ∧
      (x.g.loader.mode = .ended → x.g.storer.mode = .ended →
        (∀ p ∈ s.cohorts, p.2.grp = x.co.grp → p.2.batchesDone = true ∧ (p.1 = x.c ∨ p.2.ended = true)) →
        lookup t.groups x.co.grp = none ∧ (∀ k co, lookup t.cohorts k = some co → co.grp ≠ x.co.grp) ∧
        (∀ k, k ≠ x.co.grp → lookup t.groups k = lookup s.groups k))

/-- R319 to R332: each integer form that works element by element writes, in every active lane, every element of D with the exact
result of the elements of its sources, wrapped or clamped once; inactive lanes and every other register keep their values. -/
def Obligations.IntegerElementFormsWriteTheirResult : Prop :=
  ∀ p ∈ elementForms, ∀ (s : State) (k : LCtx), LaneGo s k p.2.1 → ∃ f : Nat → Word, WritesLanes s k (p.1 k.w) (fun l => some (f l)) ∧
    ∀ l i, k.active l = true → i < tyCount k.w.tyn → elem (tyBits k.w.tyn) (f l).toNat i =
      intoElem k.w.tyn (p.2.2.1 k.w)
        (p.2.2.2 k.w (element k.w.tyn (k.a l) i) (element k.w.tyn (k.b l) i) (element k.w.tyn (k.c l) i))

/-- R325, R327, R330, R331: the logic, bit-field, dot-product and compare forms. -/
def Obligations.WordFormsWriteTheirResult : Prop :=
  (∀ p ∈ wordForms, ∀ (s : State) (k : LCtx), LaneGo s k p.2.1 →
    WritesLanes s k (p.1 k.w) (fun l => some (p.2.2 k.w (k.a l) (k.b l) (k.c l)))) ∧
  (∀ (s : State) (k : LCtx), LaneGo s k 0x1B → ∃ f : Nat → Word, WritesLanes s k (.vbool k.w) (fun l => some (f l)) ∧
    ∀ l j, j < 32 → (f l).getLsbD j = k.w.md.getLsbD (((k.a l).getLsbD j).toNat + 2 * ((k.b l).getLsbD j).toNat +
      4 * ((k.c l).getLsbD j).toNat)) ∧
  (∀ (s : State) (k : LCtx) (acc : Nat), LaneGo s k 0x1A → acc = (if k.w.tyn = 9 ∧ k.w.md.getLsbD 1 = true then 2 else 1) →
    WritesLanes s k (.vdot4 k.w) (fun l => some (BitVec.ofNat 32 (intoElem acc (k.w.md.getLsbD 0)
      ((element acc (k.c l) 0).1 + ((List.range 4).map (fun i => (element k.w.tyn (k.a l) i).1 *
        (element (if k.w.md.getLsbD 1 then 9 else 8) (k.b l) i).1)).sum))))) ∧
  (∀ (s : State) (k : LCtx), LaneGo s k 0x11 → ∃ f : Nat → Word, WritesLanes s k (.vcmp k.w) (fun l => some (f l)) ∧
    ∀ l i, i < tyCount k.w.tyn → elem (tyBits k.w.tyn) (f l).toNat i =
      if condHolds k.w.rsel (element k.w.tyn (k.a l) i).1 (element k.w.tyn (k.b l) i).1 then 2 ^ tyBits k.w.tyn - 1 else 0)

/-- R334, R335: the movements take A from another lane, or their fill where that lane is not active; VSHIFT.ROT keeps D there; VMATCH
gives each active lane the mask of the active lanes that hold its value. -/
def Obligations.LanesTakeValuesFromLanes : Prop :=
  (∀ p ∈ moveForms, ∀ (s : State) (k : LCtx), LaneGo s k p.2.1 → (p.2.1 = 0x62 → k.w.md.getLsbD 1 = false) →
    WritesLanes s k (p.1 k.w) (fun l => some (takes k l (p.2.2 k.w l (k.b l))))) ∧
  (∀ (s : State) (k : LCtx), LaneGo s k 0x62 → k.w.md.getLsbD 1 = true →
    WritesLanes s k (.vshift k.w) (fun l =>
      let j := (if k.w.md.getLsbD 0 then l + (k.b l).toNat % 32 else l + 32 - (k.b l).toNat % 32) % 32
      if k.active j then some (k.a j) else none)) ∧
  (∀ (s : State) (k : LCtx), LaneGo s k 0x63 → (k.w.md.getLsbD 0 = true ∨ uniformCode k.w.b) →
    WritesLanes s k (.vbcast k.w) (fun l =>
      some (takes k l (if k.w.md.getLsbD 0 then (k.act.headD 0 : Nat) else ((k.b l).toNat % 32 : Nat))))) ∧
  (∀ (s : State) (k : LCtx), LaneGo s k 0x68 → ∃ f : Nat → Word, WritesLanes s k (.vmatch k.w) (fun l => some (f l)) ∧
    ∀ l j, j < 32 → (f l).getLsbD j = (k.active j && (if k.w.md.getLsbD 0 then
      decide (k.src64 k.w.a j = k.src64 k.w.a l) else decide (k.a j = k.a l))))

/-- R333, R357, R358: VNOP has no effect; VUNPK reads one field of A; VPACK packs fields of the registers from A on. -/
def Obligations.FieldsArePackedAndUnpacked : Prop :=
  (∀ (s : State) (k : LCtx), LaneGo s k 0x00 → LaneLeaves s k (.vnop k.w) k.x.co) ∧
  (∀ (s : State) (k : LCtx) (fw : Nat) (f : Nat → Nat), LaneGo s k 0x41 → fw = 4 * 2 ^ (k.w.mdn % 4) →
    (∀ l, f l = (k.a l).toNat / 2 ^ (fw * (k.w.mdn / 8)) % 2 ^ fw) →
    WritesLanes s k (.vunpk k.w) (fun l => some (if k.w.md.getLsbD 2 then BitVec.ofInt 32 (Int.bmod (f l) (2 ^ fw))
      else BitVec.ofNat 32 (f l)))) ∧
  (∀ (s : State) (k : LCtx) (fw : Nat) (input : Nat → Nat → Nat × Nat), LaneGo s k 0x40 → k.w.mdn % 4 ≤ 2 → k.w.mdn / 4 % 4 ≤ 2 →
    fw = 4 * 2 ^ (k.w.mdn % 4) →
    (∀ l j, input l j = if fw = 4 then ((k.x.co.vreg (k.w.a.toNat + j / 4) l).toNat / 2 ^ (8 * (j % 4)) % 256, 8)
      else ((k.x.co.vreg (k.w.a.toNat + j) l).toNat, 32)) →
    ∃ f : Nat → Word, WritesLanes s k (.vpack k.w) (fun l => some (f l)) ∧ ∀ l j, j < 32 / fw → elem fw (f l).toNat j =
      if k.w.mdn / 4 % 4 = 0 then (input l j).1 % 2 ^ fw
      else if k.w.mdn / 4 % 4 = 1 then
        ((max (-2 ^ (fw - 1)) (min (2 ^ (fw - 1) - 1) (Int.bmod (input l j).1 (2 ^ (input l j).2)))) % 2 ^ fw).toNat
      else (max 0 (min (2 ^ fw - 1) (Int.bmod (input l j).1 (2 ^ (input l j).2)))).toNat)

/-- R337 to R340: the exports send a scalar value: VVOTE its ballot, any, all or count, VXS a lane's value, 0 from a lane that is
not active, VREDX the tree reduction of R257, whose flags FPF gains. -/
def Obligations.ExportsSendScalarValues : Prop :=
  (∀ (s : State) (k : LCtx) (b : Word), LaneGo s k 0x64 →
    (∀ l < 32, b.getLsbD l = (k.active l && (decide (k.a l ≠ 0) != k.w.md.getLsbD 2))) →
    Exports s k (.vvote k.w) [(k.w.d.toNat % 64,
      if k.w.mdn % 4 = 0 then b else if k.w.mdn % 4 = 1 then oneIf (decide (b ≠ 0))
      else if k.w.mdn % 4 = 2 then oneIf (decide (b = k.blk.mask))
      else BitVec.ofNat 32 ((List.range 32).filter (fun l => b.getLsbD l)).length)]) ∧
  (∀ (s : State) (k : LCtx) (l : Nat), LaneGo s k 0x67 → (k.w.md.getLsbD 0 = true ∨ uniformCode k.w.b) →
    l = (if k.w.md.getLsbD 0 then k.act.headD 0 else (k.b 0).toNat % 32) →
    Exports s k (.vxs k.w) (if k.w.md.getLsbD 1 then
        [(k.w.d.toNat % 64, if k.active l then k.src k.w.a l else 0),
         (k.w.d.toNat % 64 + 1, if k.active l then k.src (k.w.a + 1) l else 0)]
      else [(k.w.d.toNat % 64, if k.active l then k.a l else 0)])) ∧
  (∀ (s : State) (k : LCtx), LaneGo s k 0x65 → (redTree k).2 &&& k.blk.fpe.setWidth 5 = 0 →
    Exports s k (.vredx k.w) [(k.w.d.toNat % 64, BitVec.ofNat 32 (redTree k).1)] (redTree k).2 ∧
    (k.w.tyn = 1 → k.w.red = 0 → k.act ≠ [] → redTree k = ((k.act.map (fun l => (k.a l).toNat)).sum % 2 ^ 32, 0)))

/-- R336: VSCAN gives each active lane the running reduction of the active lanes up to it, and with EXCL, up to the one before, the
first taking C; no enabled flag is raised. What FTZ flushes of C and of the first lane's own value is the model's choice (assumption 19). -/
def Obligations.ScansRunOverTheActiveLanes : Prop :=
  ∀ (s : State) (k : LCtx) (fl : Sticky), LaneGo s k 0x66 →
    fl = ((if k.w.md.getLsbD 7 then scanExcl k k.act else scanIncl k k.act).foldl (fun m r => m ||| r.2.2) 0) →
    fl &&& k.blk.fpe.setWidth 5 = 0 →
    ∃ (f : Nat → Word) (v : SMap Word) (badV : List Nat), LaneLeaves s k (.vscan k.w) { k.x.co with v := v, badV := badV, fpf := k.x.co.fpf ||| fl.setWidth 32 } ∧
      (∀ r l, l < 32 → get 0 v (r * 32 + l) = if r = k.w.d.toNat ∧ k.active l = true then f l else k.x.co.vreg r l) ∧
      (k.w.md.getLsbD 7 = false → ∀ p ∈ running k none k.act, f p.1 = BitVec.ofNat 32 p.2) ∧
      (k.w.md.getLsbD 7 = true → k.act ≠ [] → f (k.act.headD 0) = BitVec.ofNat 32 (redWordIn k (k.c (k.act.headD 0))) ∧
        (tyFloat.contains k.w.tyn = false → f (k.act.headD 0) = k.c (k.act.headD 0))) ∧
      (k.w.md.getLsbD 7 = true → ∀ j l, k.act[j + 1]? = some l → ∀ p, (running k none k.act)[j]? = some p →
        f l = BitVec.ofNat 32 p.2)

/-- R343, R346 to R352, R252: each float form writes, in every active lane, every element of D with its rounded result, and FPF
gains the flags of all of them, where none is enabled; VFCLASS raises none. -/
def Obligations.FloatElementFormsWriteTheirResult : Prop :=
  (∀ p ∈ floatForms, ∀ (s : State) (k : LCtx), LaneGo s k p.2.1 → ∃ f fl,
    Elementwise k (fun l i => p.2.2 k (element k.w.tyn (k.a l) i).2 (element k.w.tyn (k.b l) i).2 (element k.w.tyn (k.c l) i).2) f fl ∧
    WritesFloat s k (p.1 k.w) f fl) ∧
  (∀ (s : State) (k : LCtx), LaneGo s k 0x37 → ∃ f : Nat → Word, WritesLanes s k (.vfclass k.w) (fun l => some (f l)) ∧
    ∀ l i, i < tyCount k.w.tyn → elem (tyBits k.w.tyn) (f l).toNat i = fclass k.fmt (element k.w.tyn (k.a l) i).2 % 2 ^ tyBits k.w.tyn)

/-- R354, R355, R359 to R361: VCVT converts each destination element from its source element; VMXQ writes the lane form of the block
that it quantises, VMXD each element of a block in lane form. -/
def Obligations.ConversionsWriteTheirResult : Prop :=
  (∀ (s : State) (k : LCtx), LaneGo s k 0x3D → ∃ f fl,
    Elementwise k (fun l j => cvtElem k l j) f fl ∧ WritesFloat s k (.vcvt k.w) f fl ∧
    (tyCount k.w.src ≤ tyCount k.w.tyn → ∀ l j, (k.w.a.toNat ≤ 255 ∨ tyCount k.w.src = tyCount k.w.tyn) →
      j < tyCount k.w.tyn → k.w.part = 0 → cvtSource k l j = (element k.w.src
        (if k.w.a.toNat ≤ 255 then k.x.co.vreg (k.w.a.toNat + j / tyCount k.w.src) l else k.a l) (j % tyCount k.w.src)).2)) ∧
  (∀ (s : State) (k : LCtx), LaneGo s k 0x42 →
    WritesFloat s k (.vmxq k.w) (fun l => mxLane k.ef (mxQuantise k).1 (mxQuantise k).2.1 l) (mxQuantise k).2.2) ∧
  (∀ (s : State) (k : LCtx), LaneGo s k 0x43 →
    WritesFloat s k (.vmxd k.w) (fun l => BitVec.ofNat 32 (mxRestore k l).1) (allFlags (k.act.map (fun l => (mxRestore k l).2))))

/-- R254, R182, R424: a float word that raises an enabled flag raises F_FP instead of writing: with a handler to be had, the cohort
enters it with the flags in XADDRLO and the LANE's SPC in XPC, every vector register and FPF as before. R28, R29, R366, R42: so does a
lane access whose check fails in a lane, with the word's place in its block in XLW and the address in XADDR, no lane having written a
register or a byte; F_PAGE parks the cohort on its fault-ring entries instead; and a word that names a vector register that the cohort
does not have raises F_ILL. What is recorded as it parks, and of a private access, are the model's readings and choices (assumptions
17, 55). -/
def Obligations.AnEnabledFlagTrapsBeforeTheWordWrites : Prop :=
  (∀ p ∈ laneAccesses, ∀ (s : State) (k : LCtx) (f : AccFault), LaneGo s k p.2.1 → k.x.co.exports = [] → p.2.2 s k = some f →
    (trapsAt f → handlerOpen s k.x → TakesFault s k.x (p.1 k.w) f 1 k.blk.spc k.blk.next) ∧
    (f.code = 6 → k.x.g.save = false → ParksOnPages s k.x (p.1 k.w) f 1 k.blk.spc k.blk.next)) ∧
  (∀ p ∈ laneAccesses.map (fun p => (p.1, p.2.1)) ++ elementForms.map (fun p => (p.1, p.2.1)), ∀ (s : State) (k : LCtx), LaneRuns s k →
    k.x.laneRunnable = true → (∃ r ∈ laneReads p.2 k.w ++ laneWrites p.2 k.w, k.x.co.nv ≤ r) → k.x.co.exports = [] → handlerOpen s k.x →
    TakesFault s k.x (p.1 k.w) { code := 1 } 1 k.blk.spc k.blk.next) ∧
  ∀ p ∈ floatForms, ∀ (s : State) (k : LCtx) (f : Nat → Word) (fl : Sticky), LaneGo s k p.2.1 →
    Elementwise k (fun l i => p.2.2 k (element k.w.tyn (k.a l) i).2 (element k.w.tyn (k.b l) i).2 (element k.w.tyn (k.c l) i).2) f fl →
    fl &&& k.blk.fpe.setWidth 5 ≠ 0 → k.x.co.handler = false → k.x.co.exports = [] → nothingSent s k.x →
    (s.tenant k.x.t).thctl.getLsbD 16 = true → (s.tenant k.x.t).thctl.toNat % 65536 ≠ 0 →
    (∀ p ∈ s.cohorts, p.1 ≠ k.x.c → p.2.grp = k.x.co.grp → p.2.handler = false ∧ p.2.park ≠ some .handler) →
    ∃ t, exec (p.1 k.w) s = .next t ∧
      OnlyLocal s t k.x { inHandler s k.x 10 1 k.blk.spc (fl.setWidth 32) 0 with xlw := BitVec.ofNat 32 k.blk.next }
        (latchFreed (s.core k.x.core) k.x.c) (waitsDropped k.x.g k.x.co.ix)

/-- R367 to R369, R178: VLD leaves its destinations pending with what its lanes read: of the scratchpad, or of global and private
memory through the core's view, past the L1D where it is ordered at .DIE or wider or streaming; with ORD 1 to 6 it is an acquire, for
which later accesses wait, and which at .DIE or wider discards the L1D. What its reads have made go forward leaves the machine at r;
where nothing of the cohort was on its way, a read past the L1D gives the core's view. That values are taken at issue, that an ordered
VLD of the scratchpad discards the L1D, and what an acquire holds back, are the model's readings (assumptions 4, 48, 54). -/
def Obligations.LaneLoadsTakeTheirCoresView : Prop :=
  (∀ (s : State) (k : LCtx) (n : Nat) (dst : List Nat), LaneGo s k 0x80 → k.w.sm = 5 → n = widthBytes k.w.wd →
    dst = fromD k (max 1 (n / 4)) → inSpace s k 0 n → spaceGood k 0 n →
    LaneDoes s s k (.vld k.w) { k.x.co with pend := k.x.co.pend ++ [{ lanePending k s.fresh dst .core 0 with
        vals := k.act.flatMap (fun l => laneLoaded k l (bytesAt k.x.g.sp (k.ea 5 l).toNat n)),
        acq := decide (1 ≤ k.w.ord ∧ k.w.ord ≤ 6) }] }
      { s.core k.x.core with l1d := if 3 ≤ k.w.ord ∧ k.w.ord ≤ 6 then [] else (s.core k.x.core).l1d } k.x.g dst) ∧
  (∀ (s r : State) (k : LCtx) (y : Ctx) (n : Nat) (dst : List Nat) (ps : List Piece) (vals : List (Nat × Word)), LaneGo s k 0x80 →
    k.w.sm ≠ 5 → n = widthBytes k.w.wd → dst = fromD k (max 1 (n / 4)) →
    allPieces s k k.w.sm n n .read (fun _ => false) = .ok ps →
    readLanes s k (decide (k.w.ord ≤ 2)) ps = (r, vals, none) → Became r k.x y →
    LaneDoes s r k (.vld k.w) { y.co with pend := y.co.pend ++
        [{ lanePending k r.fresh dst (widestPath s ps) (firstVa ps) with
            vals := vals, acq := decide (1 ≤ k.w.ord ∧ k.w.ord ≤ 6) }] }
      { r.core k.x.core with l1d := if 3 ≤ k.w.ord ∧ k.w.ord ≤ 6 then [] else (r.core k.x.core).l1d } k.x.g dst ∧
      (3 ≤ k.w.ord → nothingOut (s.core k.x.core) k.x.c → (∀ e ∈ (s.core k.x.core).stores, e.c ≠ k.x.c) →
        vals = k.act.flatMap (fun l => laneLoaded k l
        ((ps.filter (fun p => p.lane == l)).flatMap (fun p => coreRead s k.x.core p.xl.pa p.n)))))

/-- R370, R371: VLDB reads a buffer of its group; VLDT reads a row of 16 bytes for each active lane and gives each lane of a quad its
share of the columns, an inactive lane's row counting as zero. The values are those at issue (assumption 4). -/
def Obligations.LanesReadLocalSpaces : Prop :=
  (∀ (s : State) (k : LCtx) (n : Nat) (dst : List Nat), LaneGo s k 0x89 → k.w.am ≠ 0 → n = widthBytes k.w.bwd →
    dst = fromD k (max 1 (n / 4)) → inSpace s k k.w.am n → spaceGood k k.w.am n →
    LaneDoes s s k (.vldb k.w) { k.x.co with pend := k.x.co.pend ++ [{ lanePending k s.fresh dst .core 0 with
      vals := k.act.flatMap (fun l => laneLoaded k l (bytesAt (k.x.g.space k.w.am) (k.ea 5 l).toNat n)) }] }
      (s.core k.x.core) k.x.g dst) ∧
  (∀ (s : State) (k : LCtx) (e : Nat) (row out : Nat → List Byte), LaneGo s k 0x88 → k.w.am ≤ 2 → e = 2 ^ k.w.am →
    inSpace s k 0 16 → spaceGood k 0 16 →
    (∀ l, row l = if l < 32 ∧ k.active l = true then bytesAt k.x.g.sp (k.ea 5 l).toNat 16 else List.replicate 16 0) →
    (∀ l, (out l).length = 16) →
    (∀ l j r b, l < 32 → j < 16 / e / 4 → r < 4 → b < e → (out l).getD (j * (4 * e) + r * e + b) 0 =
      (row (l / 4 * 4 + r)).getD ((l % 4 * (16 / e / 4) + j) * e + b) 0) →
    LaneDoes s s k (.vldt k.w) { k.x.co with pend := k.x.co.pend ++ [{ lanePending k s.fresh (fromD k 4) .core 0 with
      vals := k.act.flatMap (fun l => laneLoaded k l (out l)) }] } (s.core k.x.core) k.x.g (fromD k 4))

/-- R367 to R369, R370, R56, R60, R108: VST stores to the scratchpad, after what its cohort has sent before has gone forward, and its
global and private stores enter its cohort's store queue, one request for each line, after the release that REL asks for. VSTB stores
to a buffer of its group, where no matrix operation of the group is in flight. What goes forward, and the release, are performed within
the step (assumptions 66, 5). -/
def Obligations.LaneStoresTakeEffect : Prop :=
  (∀ (s q r : State) (k : LCtx) (y : Ctx) (n : Nat), LaneGo s k 0x81 → k.w.sm = 5 → n = widthBytes k.w.wd → inSpace s k 0 n →
    Released s q k (k.w.rel = true) (k.w.ord - 1) true → r = settleCtx q k.x → Became r k.x y →
    ∃ g, LaneDoes s r k (.vst k.w) y.co (r.core k.x.core) g ∧ storesSpace k g 0 n) ∧
  (∀ (s r : State) (k : LCtx) (y : Ctx) (n : Nat) (ps : List Piece) (cells : List Host.Cell), LaneGo s k 0x81 → k.w.sm ≠ 5 →
    n = widthBytes k.w.wd → allPieces s k k.w.sm n n .write (fun _ => false) = .ok ps →
    Released s r k (k.w.rel = true) (k.w.ord - 1) true → Became r k.x y → cells = laneCells k n ps →
    ∃ rs : List StoreReq, LaneDoes s (seeks r k.x (vasOf ps)) k (.vst k.w) y.co
        { r.core k.x.core with queue := (r.core k.x.core).queue ++ rs, seq := (r.core k.x.core).seq + rs.length } k.x.g ∧
      (∀ q ∈ rs, q.c = k.x.c ∧ q.t = k.x.t ∧ q.fill = false ∧ q.lane = true ∧
        ∃ line, q.cells = cells.filter (fun c => c.1 / 64 == line)) ∧
      ∀ t, exec (.vst k.w) s = .next t → ∀ b, cohortByte t (t.core k.x.core) k.x.c b =
        (lastCell cells b).getD (cohortByte r (r.core k.x.core) k.x.c b)) ∧
  (∀ (s r : State) (k : LCtx) (y : Ctx) (n : Nat), LaneGo s k 0x8A → 1 ≤ k.w.am → k.w.am ≤ 3 → n = widthBytes k.w.bwd →
    inSpace s k k.w.am n → r = settleCtx s k.x → Became r k.x y →
    (r.core k.x.core).engine = [] → (∀ p ∈ r.cohorts, p.2.grp = k.x.co.grp → p.2.heldOps = []) →
    ∃ g, LaneDoes s r k (.vstb k.w) y.co (r.core k.x.core) g ∧ storesSpace k g k.w.am n)

/-- R372 to R374: VATOM sends one operation for each active lane to its home slice, and performs them, lane after lane, in the
scratchpad; its old words are on their way to D. Its kinds REL and AR release first, and ACQ and AR end as an acquire, with every
operation performed: where nothing else of the cohort is on its way, memory is as the operations leave it, lane after lane, and the old
words are what each found. That an ordered VATOM is performed within its step, and what goes forward first, are the model's readings
(assumptions 48, 5, 66). -/
def Obligations.LaneAtomicsAreSentOrPerformed : Prop :=
  (∀ (s r : State) (k : LCtx) (y : Ctx) (n : Nat) (ps : List Piece), LaneGo s k 0x82 → k.w.am ≠ 2 → n = (if k.w.aw64 then 8 else 4) →
    allPieces s k (smOfAm k.w.am k.w.aw64) n n .readWrite noAtomics = .ok ps →
    Released s r k (2 ≤ k.w.mdn / 4 % 4) (k.w.mdn % 4 + 1) → Became r k.x y →
    (k.w.mdn / 4 % 2 = 0 → LaneDoes s (seeks r k.x (vasOf ps)) k (.vatom k.w) { y.co with
        pend := y.co.pend ++ [{ lanePending k r.fresh (fromD k (n / 4)) (widestPath r ps) (firstVa ps) with
          waits := ps.length, rmw := true }] }
      { r.core k.x.core with
          l1d := linesDropped (r.core k.x.core) ps, seq := (r.core k.x.core).seq + 1,
          atoms := (r.core k.x.core).atoms ++ ps.map (atomOf k r.fresh (r.core k.x.core).seq) } k.x.g (fromD k (n / 4))) ∧
    (k.w.mdn / 4 % 2 = 1 → ∃ t co, exec (.vatom k.w) s = .next t ∧ lookup t.cohorts k.x.c = some co ∧
      (∀ q ∈ (t.core k.x.core).atoms, q.c = k.x.c → (r.core k.x.core).seq < q.seq) ∧
      (1 ≤ k.w.mdn % 4 → (t.core k.x.core).l1d = []) ∧
      ∃ p ∈ co.pend, p.tag = r.fresh ∧ p.regs = fromD k (n / 4) ∧ p.acq = true ∧
        (nothingOut (r.core k.x.core) k.x.c → storesOff r k.x.core (pasOf ps) = true → plainTarget r (pasOf ps) →
          p.waits = 0 ∧ p.bad = none ∧ p.vals = (ps.foldl (sliceStep k n) (readByte r, [])).2 ∧
          ∀ b, readByte t b = (ps.foldl (sliceStep k n) (readByte r, [])).1 b))) ∧
  (∀ (s q r : State) (k : LCtx) (y : Ctx) (n : Nat), LaneGo s k 0x82 → k.w.am = 2 → n = (if k.w.aw64 then 8 else 4) → inSpace s k 0 n →
    spaceGood k 0 n → Released s q k (2 ≤ k.w.mdn / 4 % 4) (k.w.mdn % 4 + 1) → r = settleCtx q k.x → Became r k.x y →
    ∃ g l1, LaneDoes s r k (.vatom k.w) { y.co with
        pend := y.co.pend ++ [{ lanePending k r.fresh (fromD k (n / 4)) .core 0 with
          vals := (k.act.foldl (padStep k n) (k.x.g.sp, [])).2, acq := decide (k.w.mdn / 4 % 2 = 1) }] } { r.core k.x.core with l1d := l1 } g (fromD k (n / 4)) ∧
      g = { k.x.g with sp := (k.act.foldl (padStep k n) (k.x.g.sp, [])).1, bad := g.bad } ∧
      l1 = if k.w.mdn / 4 % 2 = 1 ∧ 1 ≤ k.w.mdn % 4 then [] else (r.core k.x.core).l1d)

/-- R375, R376, R79, R87: VRED sends one reduction for each distinct address, which for an addition is the sum of its lanes'
operands; VREDO sends one keyed addition for each lane. -/
def Obligations.LaneReductionsAreSent : Prop :=
  (∀ (s : State) (k : LCtx) (n : Nat) (ps : List Piece), LaneGo s k 0x83 → n = (if k.w.aw64 then 8 else 4) →
    allPieces s k (smOfAm k.w.am k.w.aw64) n n .readWrite noAtomics = .ok ps →
    ∃ qs : List RedReq, LaneDoes s (seeks s k.x (vasOf ps)) k (.vred k.w) k.x.co
        { s.core k.x.core with l1d := linesDropped (s.core k.x.core) ps, reds := (s.core k.x.core).reds ++ qs, seq := (s.core k.x.core).seq + 1 } k.x.g ∧
      qs = combine k (s.core k.x.core).seq ps ∧
      qs.length = (dedup (ps.map (·.va))).length ∧
      (laneCodeOf k.w = 0 → ∀ (j va : Nat), (dedup (ps.map (·.va)))[j]? = some va → ∃ q : RedReq, qs[j]? = some q ∧
        q.val.toNat = ((ps.filter (fun p => p.va == va)).map (fun p => (dataOperand k k.w.aw64 p.lane).toNat)).sum % 2 ^ (8 * n))) ∧
  (∀ (s : State) (k : LCtx) (ps : List Piece), LaneGo s k 0x84 →
    allPieces s k (smOfAm k.w.am k.w.aw64) 4 4 .readWrite (notLocal s) = .ok ps →
    LaneDoes s (seeks s k.x (vasOf ps)) k (.vredo k.w) k.x.co { s.core k.x.core with
      l1d := linesDropped (s.core k.x.core) ps, redos := (s.core k.x.core).redos ++ ps.map (fun p =>
        ⟨k.x.c, k.x.slot, p.xl.pa, k.w.tyn - 3, k.c p.lane, k.dreg 0 p.lane⟩) } k.x.g)

/-- R377 to R379, R82, R382: VLDF sends one request for each distinct cell, shared by the lanes that name it; VSTF, after its release,
sends one write of the highest lane's value and of state 1 for each; VPREF has no effect. That VSTF is always a release, which its step
performs, is the model's reading (assumptions 5, 48). -/
def Obligations.FutureWordsSendTheirRequests : Prop :=
  (∀ (s : State) (k : LCtx) (ps : List Piece) (dst : List Nat), LaneGo s k 0x85 →
    allPieces s k k.w.sm 16 16 .read (fun p => p.mt == 2) = .ok ps → dst = fromD k (if k.w.fw64 then 3 else 2) →
    ∃ pend freqs, LaneDoes s (seeks s k.x (vasOf ps)) k (.vldf k.w) { k.x.co with pend := k.x.co.pend ++ pend }
        { s.core k.x.core with
            l1d := linesDropped (s.core k.x.core) ps, freqs := (s.core k.x.core).freqs ++ freqs,
            seq := (s.core k.x.core).seq + 1 } k.x.g dst ∧
      pend.length = (cellsNamed ps).length ∧ freqs.length = (cellsNamed ps).length ∧
      ∀ j c, (cellsNamed ps)[j]? = some c → ∃ va, pend[j]? = some { lanePending k (s.fresh + j) dst (pathOf s c.1) va with
          future := true, lanes := c.2, w64 := k.w.fw64, waits := if k.x.co.pend.any Pending.atRest then 0 else 1 } ∧
        (∃ p ∈ ps, p.xl.pa = c.1 ∧ p.va = va) ∧
        freqs[j]? = some { c := k.x.c, tag := s.fresh + j, pa := c.1, w64 := k.w.fw64,
                           scope := if k.w.ord = 0 then 3 else k.w.ord - 1, at_ := s.clk,
                           seq := (s.core k.x.core).seq, va := va }) ∧
  (∀ (s r : State) (k : LCtx) (y : Ctx) (ps : List Piece), LaneGo s k 0x86 →
    allPieces s k k.w.sm 16 16 .write (fun p => p.mt == 2) = .ok ps →
    Released s r k True (if k.w.ord = 0 then 3 else k.w.ord - 1) → Became r k.x y →
    ∃ rs : List StoreReq, LaneDoes s (seeks r k.x (vasOf ps)) k (.vstf k.w) y.co { r.core k.x.core with
        queue := (r.core k.x.core).queue ++ rs, seq := (r.core k.x.core).seq + rs.length } k.x.g ∧
      rs.length = (cellsNamed ps).length ∧
      ∀ j c, (cellsNamed ps)[j]? = some c → rs[j]? = some (⟨k.x.c, k.x.t,
        cellsOf c.1 (leBytes 16 ((dataOperand k k.w.fw64 (c.2.getLast?.getD 0)).toNat + 2 ^ 64)), true, 0,
        (r.core k.x.core).seq + j, true, some (whoIs r k.x.co k.blk.spc)⟩ : StoreReq)) ∧
  (∀ (s : State) (k : LCtx), LaneGo s k 0x8B → LaneLeaves s k (.vpref k.w) k.x.co)

/-- R307, R308, R380, R381, R199, R200: SPAWN and VSPAWN that pass their checks, after their release, hand one record, and one for each
active lane in ascending order, to their schedulers, with the payload and depth that the spec gives, where each has room; a SPAWN whose
record has none parks, the last of its die's spawners. That a place in the queue's pages is kept for a record on its way, p being the
machine with that place, and that the release is performed within the step, before the payload is read, are the model's readings
(assumptions 29, 5); so is that a VSPAWN's word waits for its records to enter. -/
def Obligations.SpawnsHandOverTheirRecords : Prop :=
  (∀ (s r p : State) (x y : Ctx) (d a b : SReg) (scope : BitVec 3) (off size depth die : Nat) (q : Rec), Runs s x →
    scalarReady x { regs := pairOf a ++ [b.toNat, d.toNat], reads := pairOf a ++ [b.toNat, d.toNat], join := true, wr := true } = true →
    off = (x.co.reg b.toNat).toNat → size = (x.co.reg d.toNat).toNat → off % 8 = 0 → off + size ≤ x.node.spsz →
    x.g.rangeBad 0 off size = false → spawnCheck s x (spawnTag x).2 (BitVec.ofNat 64 (pairNat x.co a)) size = .ok depth →
    release s x.core x.t x.c scope.toNat = some r → Became r x y →
    q = { id := r.fresh, spkg := r.link.pkgid, sslot := x.slot, sgen := r.gen x.slot, slot := pairNat x.co a / 2 ^ 32 % 64,
          gen := BitVec.ofNat 16 (pairNat x.co a / 2 ^ 38), node := pairNat x.co a / 2 ^ 20 % 4096, scope := scope.toNat,
          depth := depth, tag := (spawnTag x).1, handle := BitVec.ofNat 64 (pairNat x.co a),
          payload := bytesAt x.g.sp off size, from_ := x.c } →
    destOf r q = .die die → (r.die die).parked = [] → roomFor r q (.die die) [] = true →
    p = (if q.own = true ∨ refusal r q = 0 then
      (givePlace { r with fresh := r.fresh + 1 } die q.slot q.node (handedOver r die q.slot q.node)).getD r else r) →
    ∃ t co, exec (.spawn d a b scope) s = .next t ∧ lookup t.cohorts x.c = some co ∧ Moved { y.co with outbox := [] } co 1 ∧
      t.die die = { p.die die with transit := (r.die die).transit ++ [q] } ∧ (∀ k, k ≠ die → t.die k = r.die k) ∧
      t.launches = p.launches ∧
      (∀ k, k ≠ x.c → lookup t.cohorts k = lookup r.cohorts k) ∧ SameBytes r t) ∧
  (∀ (s r : State) (x y : Ctx) (d a b : SReg) (scope : BitVec 3) (off size depth die : Nat) (q : Rec), Runs s x →
    scalarReady x { regs := pairOf a ++ [b.toNat, d.toNat], reads := pairOf a ++ [b.toNat, d.toNat], join := true, wr := true } = true →
    off = (x.co.reg b.toNat).toNat → size = (x.co.reg d.toNat).toNat → off % 8 = 0 → off + size ≤ x.node.spsz →
    x.g.rangeBad 0 off size = false → spawnCheck s x (spawnTag x).2 (BitVec.ofNat 64 (pairNat x.co a)) size = .ok depth →
    release s x.core x.t x.c scope.toNat = some r → Became r x y →
    q = { id := r.fresh, spkg := r.link.pkgid, sslot := x.slot, sgen := r.gen x.slot, slot := pairNat x.co a / 2 ^ 32 % 64,
          gen := BitVec.ofNat 16 (pairNat x.co a / 2 ^ 38), node := pairNat x.co a / 2 ^ 20 % 4096, scope := scope.toNat,
          depth := depth, tag := (spawnTag x).1, handle := BitVec.ofNat 64 (pairNat x.co a),
          payload := bytesAt x.g.sp off size, from_ := x.c } →
    destOf r q = .die die → roomFor r q (.die die) ((r.die die).parked.filter (· != x.c)) = false →
    ∃ t co w, exec (.spawn d a b scope) s = .next t ∧ lookup t.cohorts x.c = some co ∧
      Moved { y.co with outbox := [{ q with wait := w }], park := some .spawn, parkAt := r.clk } co 1 ∧ (q.own = true → w = 0) ∧
      t.die die = { r.die die with parked := (r.die die).parked ++ [x.c] } ∧ (∀ k, k ≠ die → t.die k = r.die k) ∧
      (∀ k, k ≠ x.c → lookup t.cohorts k = lookup r.cohorts k) ∧ SameBytes r t) ∧
  (∀ (s r : State) (k : LCtx) (y : Ctx) (die : Nat) (h : Nat → Dword) (depth : Nat → Nat) (qs : List Rec), LaneGo s k 0x87 →
    (∀ l, h l = if k.w.md.getLsbD 9 then k.src64 k.w.a l else k.src64 k.w.b l) →
    (∀ l, k.active l = true → spawnCheck s k.x (laneTag k.x l).2 (h l) (8 * (k.w.mdn / 16 % 32 + 1)) = .ok (depth l)) →
    Released s r k True (k.w.mdn / 2 % 8) → Became r k.x y → qs.length = k.act.length →
    (∀ j l, k.act[j]? = some l → ∃ q : Rec, qs[j]? = some q ∧ q.id = r.fresh + j ∧ q.handle = h l ∧ q.depth = depth l ∧
      q.tag = (laneTag k.x l).1 ∧ q.slot = (h l).toNat / 2 ^ 32 % 64 ∧ q.node = (h l).toNat / 2 ^ 20 % 4096 ∧
      q.gen = BitVec.ofNat 16 ((h l).toNat / 2 ^ 38) ∧ q.spkg = r.link.pkgid ∧ q.sslot = k.x.slot ∧ q.sgen = r.gen k.x.slot ∧
      q.scope = k.w.mdn / 2 % 8 ∧ q.from_ = k.x.c ∧ q.at_ = 0 ∧ q.cand = 0 ∧ q.origin = 0 ∧ q.late = false ∧
      q.res = false ∧ q.key = none ∧ q.credit = false ∧ q.hold = true ∧ q.wait = 0 ∧
      q.payload = (List.range (2 * (k.w.mdn / 16 % 32 + 1))).flatMap (fun i => leBytes 4 (k.dreg i l).toNat)) →
    (∀ q ∈ qs, destOf r q = .die die ∧ q.own = true ∧
      handedOver r die q.slot q.node + qs.length ≤ queuePlaces r die q.slot q.node ∧
      (r.die die).depth q.slot q.node + handedOver r die q.slot q.node + qs.length ≤ (y.l.node q.node).hwm) →
    (r.die die).parked = [] →
    ∃ t co, exec (.vspawn k.w) s = .next t ∧ lookup t.cohorts k.x.c = some co ∧
      LaneMoved r.clk { y.co with outbox := [], vout := k.act.length } co k.w ∧ t.die die = { r.die die with transit := (r.die die).transit ++ qs } ∧
      (∀ j, j ≠ die → t.die j = r.die j) ∧ (∀ j, j ≠ k.x.c → lookup t.cohorts j = lookup r.cohorts j) ∧ SameBytes r t)

/-- R388, R389, R397, R409, R410, R55: MMA, MMAS and MRES that pass the checks at issue enter their core's engine behind the operations
already there, as the next operation of the open batch, and lock the 4 KiB regions of CBUF that their C touches. -/
def Obligations.MatrixOperationsEnterTheirEngine : Prop :=
  ∀ (s : State) (x : Ctx) (d a b : SReg) (ext : Word) (at3 : BitVec 3) (mb : BitVec 4) (i : Instr) (m : MatOp) (len : Nat), Runs s x →
    ((i = .mma d a b ext ∧ m.opc = 0x50 ∧ m.ext = ext ∧ len = 2) ∨ (i = .mmas d a b ext ∧ m.opc = 0x51 ∧ m.ext = ext ∧ len = 2) ∨
      (i = .mres d a b at3 mb ∧ m.opc = 0x52 ∧ m.ext.toNat = 16 * at3.toNat + mb.toNat ∧ len = 1)) →
    m = { c := x.c, opc := m.opc, ext := m.ext, ix := x.co.openOps % 256, batch := x.co.lcom + 1,
          old := x.g.racy.filter (·.stands s x.g),
          regs := (pairOf a ++ pairOf b ++ pairOf d).map x.co.reg } →
    scalarReady x { regs := pairOf a ++ pairOf b ++ pairOf d, reads := pairOf a ++ pairOf b ++ pairOf d, len := len } = true →
    x.co.heldOps = [] → opFault x.node m = none → (s.core x.core).engine.length < Config.engineOps →
    ∃ ls : List (Word × Nat), Completes s x i { x.co with openOps := x.co.openOps + 1, locks := x.co.locks ++ ls }
        { s.core x.core with engine := (s.core x.core).engine ++ [m] } x.g len ∧
      (∀ p ∈ ls, p.1 = x.co.lcom + 1) ∧
      ∀ r, (x.co.lcom + 1, r) ∈ ls ↔ ∃ o < m.cSpan, (m.cBase + o) / 4096 = r

/-- R391, R393, R395, R396, R401: MCOMMIT closes the open batch and gives its number; MWAIT completes where the batch that it names has
completed without a report; MFENCE lets later operations read what the group's lanes wrote; MSTAT reads its item; MRESUME gives the held
operations back to the engine. -/
def Obligations.BatchInstructionsComplete : Prop :=
  (∀ (s : State) (x : Ctx) (d : SReg), Runs s x → scalarReady x { regs := [d.toNat] } = true → x.co.heldOps = [] →
    (x.co.lcom - x.co.lcpl).toNat < Config.openBatches →
    ∃ t co, exec (.mcommit d) s = .next t ∧ OnlyCohort s t x.c co ∧
      WroteRegs { x.co with lcom := x.co.lcom + 1, openOps := 0 } co [(d.toNat, x.co.lcom + 1)] 1) ∧
  (∀ (s : State) (x : Ctx) (a : SReg) (b : Word), Runs s x → scalarReady x { regs := [a.toNat], reads := [a.toNat] } = true →
    x.co.heldOps = [] → b = (if (x.co.lcom - x.co.reg a.toNat).toInt < 0 then x.co.lcom else x.co.reg a.toNat) →
    0 ≤ (x.co.lcpl - b).toInt → (∀ f ∈ x.co.frep, (b - f.1).toInt < 0) → Leaves s x (.mwait a) x.co) ∧
  (∀ (s : State) (x : Ctx), Runs s x → scalarReady x { join := true } = true →
    ∃ g, Completes s x .mfence x.co (s.core x.core) g ∧ g = { x.g with racy := g.racy } ∧
      ∀ r, r ∈ g.racy ↔ r ∈ x.g.racy ∧ ∀ c, r.writer ≠ .lanes c) ∧
  (∀ (s : State) (x : Ctx), Runs s x → scalarReady x {} = true →
    (s.core x.core).engine.length + x.co.heldOps.length ≤ Config.engineOps →
    Completes s x .mresume { x.co with heldOps := [] }
      { s.core x.core with engine := (s.core x.core).engine ++ x.co.heldOps } x.g) ∧
  (∀ (s : State) (x : Ctx) (d : SReg), Runs s x → scalarReady x (useOf d []) = true →
    WritesRegs s x (.mstat d 0) [(d.toNat, x.co.lcpl)] 1 ∧ WritesRegs s x (.mstat d 1) [(d.toNat, x.co.lcom)] 1 ∧
    (x.co.frep = none → WritesRegs s x (.mstat d 2) [(d.toNat, 0)] 1) ∧
    (∀ n code ix, x.co.frep = some (n, code, ix) → WritesRegs s x (.mstat d 2)
      [(d.toNat, BitVec.ofNat 32 (code * 2 ^ 24 + n.toNat % 2 ^ 16 * 2 ^ 8 + ix % 256))] 1) ∧
    WritesRegs s x (.mstat d 3) [(d.toNat, BitVec.ofNat 32 x.co.heldOps.length)] 1)

/-- R144, R145, R151: the instructions of the loader and storer. One that computes a register writes it with its result and goes on; a
write to x0 is discarded. JAL and JALR write the address of the next instruction and go to their target, whose bit 0 JALR clears; a
branch goes to its target where it is taken; FENCE and WFI go on with no effect. Loads read the data or the instruction RAM, stores,
SC and AMOs write the data RAM alone; LR takes the reservation, which SC gives back, storing where it still matches, which is the
model's reading of RV64A (assumption 23). A CSR instruction reads its register, and writes rowsel. -/
def Obligations.LoaderInstructionsTakeEffect : Prop :=
  (∀ (s : State) (k : RvCtx) (sh : Bool), RvRuns s k →
    (∀ p ∈ aluForms, ∀ rd rs1 rs2, RvOnly s k (rvI (.alu p.1 rd rs1 rs2) sh) (rvLen sh) rd (p.2 (k.r.xreg rs1) (k.r.xreg rs2))) ∧
    (∀ p ∈ immForms, ∀ rd rs1 imm, RvOnly s k (rvI (.imm p.1 rd rs1 imm) sh) (rvLen sh) rd (p.2 (k.r.xreg rs1) imm.toInt)) ∧
    (∀ p ∈ shiftForms, ∀ rd rs1 (n : BitVec 6), (p.1 = .roriw → n.toNat < 32) →
      RvOnly s k (rvI (.shift p.1 rd rs1 n) sh) (rvLen sh) rd (p.2 (k.r.xreg rs1) n.toNat)) ∧
    (∀ p ∈ unaryForms, ∀ rd rs1, RvOnly s k (rvI (.unary p.1 rd rs1) sh) (rvLen sh) rd (p.2 (k.r.xreg rs1))) ∧
    (∀ rd (imm : BitVec 20), RvOnly s k (rvI (.lui rd imm) sh) (rvLen sh) rd (lowWord (4096 * imm.toNat : Nat)) ∧
      RvOnly s k (rvI (.auipc rd imm) sh) (rvLen sh) rd (k.r.pc + lowWord (4096 * imm.toNat : Nat)))) ∧
  (∀ (s : State) (k : RvCtx) (sh : Bool), RvRuns s k →
    (∀ rd (off : BitVec 20), ∃ x', XWritten k.r x' rd (k.r.pc + BitVec.ofNat 64 (rvLen sh)) ∧
      RvGoes s k (rvI (.jal rd off) sh) k.g { k.r with x := x' } (BitVec.ofInt 64 (k.r.pc.toNat + 2 * off.toInt)) (s.core k.g.core)) ∧
    (∀ rd rs1 (imm : BitVec 12), ∃ x', XWritten k.r x' rd (k.r.pc + BitVec.ofNat 64 (rvLen sh)) ∧
      RvGoes s k (rvI (.jalr rd rs1 imm) sh) k.g { k.r with x := x' } (BitVec.ofNat 64 (rvAddr k rs1 imm / 2 * 2)) (s.core k.g.core)) ∧
    (∀ p ∈ rvBranchForms, ∀ rs1 rs2 (off : BitVec 12), RvGoes s k (rvI (.branch p.1 rs1 rs2 off) sh) k.g k.r
      (if p.2 (k.r.xreg rs1) (k.r.xreg rs2) then BitVec.ofInt 64 (k.r.pc.toNat + 2 * off.toInt)
       else k.r.pc + BitVec.ofNat 64 (rvLen sh)) (s.core k.g.core)) ∧
    (∀ fm prd scc rd rs1, RvGoes s k (rvI (.fence fm prd scc rd rs1) sh) k.g k.r (k.r.pc + BitVec.ofNat 64 (rvLen sh)) (s.core k.g.core)) ∧
    RvGoes s k (rvI .wfi sh) k.g k.r (k.r.pc + BitVec.ofNat 64 (rvLen sh)) (s.core k.g.core)) ∧
  (∀ (s : State) (k : RvCtx) (sh : Bool), RvRuns s k →
    (∀ w ∈ rvWidths, ∀ uns rd rs1 imm, rvAddr k rs1 imm % w.2 = 0 → (inRam (rvAddr k rs1 imm) w.2 ∨ inRom (rvAddr k rs1 imm) w.2) →
      RvOnly s k (rvI (.load w.1 uns rd rs1 imm) sh) (rvLen sh) rd
        (if uns then BitVec.ofNat 64 (ramNat k.r (rvAddr k rs1 imm) w.2)
         else BitVec.ofInt 64 (Int.bmod (ramNat k.r (rvAddr k rs1 imm) w.2) (2 ^ (8 * w.2))))) ∧
    (∀ w ∈ rvWidths, ∀ rs1 rs2 imm, rvAddr k rs1 imm % w.2 = 0 → inRam (rvAddr k rs1 imm) w.2 →
      ∃ m, StoredAt k.r.dram m (rvAddr k rs1 imm - 0x10000) w.2 (k.r.xreg rs2).toNat ∧
        RvGoes s k (rvI (.store w.1 rs1 rs2 imm) sh) k.g { k.r with dram := m } (k.r.pc + BitVec.ofNat 64 (rvLen sh)) (s.core k.g.core)) ∧
    (∀ (dbl : Bool) aqrl rd rs1 rs2 (n a : Nat), n = (if dbl then 8 else 4) → a = (k.r.xreg rs1).toNat → a % n = 0 → inRam a n →
      RvWrites s k (rvI (.lr dbl aqrl rd rs1) sh) (rvLen sh) rd (BitVec.ofInt 64 (Int.bmod (ramNat k.r a n) (2 ^ (8 * n))))
        { k.r with lr := some (a, n) } k.g (s.core k.g.core) ∧
      (k.r.lr = some (a, n) → ∃ m, StoredAt k.r.dram m (a - 0x10000) n (k.r.xreg rs2).toNat ∧
        RvWrites s k (rvI (.sc dbl aqrl rd rs1 rs2) sh) (rvLen sh) rd 0 { k.r with lr := none, dram := m } k.g (s.core k.g.core)) ∧
      (k.r.lr ≠ some (a, n) →
        RvWrites s k (rvI (.sc dbl aqrl rd rs1 rs2) sh) (rvLen sh) rd 1 { k.r with lr := none } k.g (s.core k.g.core)) ∧
      (∀ p ∈ amoForms, ∃ m,
        StoredAt k.r.dram m (a - 0x10000) n (p.2 (8 * n) (ramNat k.r a n) ((k.r.xreg rs2).toNat % 2 ^ (8 * n))) ∧
        RvWrites s k (rvI (.amo p.1 dbl aqrl rd rs1 rs2) sh) (rvLen sh) rd
          (BitVec.ofInt 64 (Int.bmod (ramNat k.r a n) (2 ^ (8 * n)))) { k.r with dram := m } k.g (s.core k.g.core))) ∧
    (∀ p ∈ csrs s k, ∀ op im rd, op ≠ .rw → RvOnly s k (rvI (.csr op im rd 0 p.1) sh) (rvLen sh) rd p.2) ∧
    (∀ op im rd rs1 (src : Dword), (op = .rw ∨ rs1 ≠ 0) → src = (if im then BitVec.ofNat 64 rs1.toNat else k.r.xreg rs1) →
      RvWrites s k (rvI (.csr op im rd rs1 0x7C0) sh) (rvLen sh) rd k.r.rowsel
        { k.r with rowsel := 7 &&& (match op with
                                    | .rw => src
                                    | .rs => k.r.rowsel ||| src
                                    | .rc => k.r.rowsel &&& ~~~src) } k.g (s.core k.g.core)))

/-- R150, R153, R155: an issue instruction on a descriptor in the data RAM takes the next ticket and a free slot and copies the
descriptor: queued, or stopped with the fault of the first check that fails, in the model's order of them (assumptions 60, 61); with EXP,
where its barrier's port is open to its engine, its byte total joins the expected bytes of its barrier object, or, past 2^32 - 1, stops
it with F_BAR, as an object that cannot be read does with F_DATA. With no free slot rd is 0 and nothing is issued. -/
def Obligations.TileInstructionsIssueCommands : Prop :=
  ∀ p ∈ tileForms, ∀ (s : State) (k : RvCtx) (rd rs1 : XReg) (c : TileCmd), RvRuns s k → issueReady k rs1 p.2.2 →
    c = newCmd k rs1 p.2.1 →
    ((∀ m < 8, lookup k.r.slots m ≠ none) → RvOnly s k (p.1 rd rs1) 4 rd 0) ∧
    ((∃ m, freeSlotOf k m) → (c.exp = true → barOpen s k c) → ∃ slot, freeSlotOf k slot ∧
      (∀ code, tileFault (k.l.node k.g.node) c = some code → ∃ m, SlotsWith k.r.slots m slot (some { c with st := 3, fcode := code, atIssue := true }) ∧
        RvWrites s k (p.1 rd rs1) 4 rd k.r.tqtick { k.r with slots := m, tqtick := k.r.tqtick + 1 } k.g (s.core k.g.core)) ∧
      (tileFault (k.l.node k.g.node) c = none → (c.be && c.exp) = false → ∃ m,
        SlotsWith k.r.slots m slot (some { c with hinc := if c.descending then c.nrows else 0 }) ∧
        RvWrites s k (p.1 rd rs1) 4 rd k.r.tqtick { k.r with slots := m, tqtick := k.r.tqtick + 1 } k.g (s.core k.g.core)) ∧
      (∀ o, tileFault (k.l.node k.g.node) c = none → (c.be && c.exp) = true → o = readBar k.g c.boff → o.expb + c.total < 2 ^ 32 →
        ∃ m g, SlotsWith k.r.slots m slot (some { c with hinc := if c.descending then c.nrows else 0, owed := c.total }) ∧
          Settles k.g g c.boff (if k.st then 0x4000 else 0x2000) { o with expb := o.expb + c.total } ∧
          RvWrites s k (p.1 rd rs1) 4 rd k.r.tqtick { k.r with slots := m, tqtick := k.r.tqtick + 1 } g (s.core k.g.core)) ∧
      (tileFault (k.l.node k.g.node) c = none → (c.be && c.exp) = true → 2 ^ 32 ≤ (readBar k.g c.boff).expb + c.total → ∃ m,
        SlotsWith k.r.slots m slot (some { c with st := 3, fcode := 12, atIssue := true }) ∧
        RvWrites s k (p.1 rd rs1) 4 rd k.r.tqtick { k.r with slots := m, tqtick := k.r.tqtick + 1 } k.g (s.core k.g.core))) ∧
    ((∃ m, freeSlotOf k m) → tileFault (k.l.node k.g.node) c = none → (c.be && c.exp) = true →
      k.g.portOpen c.boff s.clk (if k.st then 0x4000 else 0x2000) = true → k.g.rangeBad 0 c.boff 32 = true →
      ∃ t g slot, exec (p.1 rd rs1) s = .next t ∧ lookup t.groups k.gid = some g ∧ freeSlotOf k slot ∧
        SlotsWith k.r.slots (g.rv k.st).slots slot (some { c with st := 3, fcode := 7, atIssue := true }) ∧
        (g.rv k.st).tqtick = k.r.tqtick + 1 ∧ (∀ j, j ≠ k.gid → lookup t.groups j = lookup s.groups j) ∧ SameBytes s t)

/-- R162, R163, R148: TWAIT completes where every command up to its ticket is stopped or gone; TFENCE holds later commands behind
earlier ones; TSTAT gives the status word; TRES runs a stopped command again from where it stands, and makes the checks at issue again of
one that stopped there; TKILL retires a command and takes its uncounted bytes back, once its issued rows are complete; ECALL ends the
program. The order of the checks, tqva, and bytes taken back beyond what is expected are the model's choices (assumptions 61, 62, 77). -/
def Obligations.QueueInstructionsTakeEffect : Prop :=
  (∀ (s : State) (k : RvCtx) (rd rs1 : XReg), RvRuns s k →
    (∀ p ∈ k.r.slots, p.2.ticket.toNat ≤ (k.r.xreg rs1).toNat → p.2.st = 3) →
    ((∀ p ∈ k.r.slots, (k.r.xreg rs1).toNat < p.2.ticket.toNat) → RvOnly s k (.twait rd rs1) 4 rd 0) ∧
    (∀ p ∈ k.r.slots, p.2.ticket ≠ 0 → p.2.ticket.toNat ≤ (k.r.xreg rs1).toNat →
      (∀ q ∈ k.r.slots, p.2.ticket.toNat ≤ q.2.ticket.toNat) → RvOnly s k (.twait rd rs1) 4 rd p.2.ticket)) ∧
  (∀ (s : State) (k : RvCtx), RvRuns s k →
    RvGoes s k .tfence k.g { k.r with fnext := k.r.tqtick } (k.r.pc + 4) (s.core k.g.core)) ∧
  (∀ (s : State) (k : RvCtx) (rd rs1 : XReg), RvRuns s k → (∀ p ∈ k.r.slots, p.2.ticket ≠ k.r.xreg rs1) →
    RvOnly s k (.tstat rd rs1) 4 rd 0 ∧ RvOnly s k (.tres rd rs1) 4 rd 1 ∧ RvOnly s k (.tkill rd rs1) 4 rd 1) ∧
  (∀ (s : State) (k : RvCtx) (rd rs1 : XReg) (slot : Nat) (c : TileCmd), RvRuns s k → (slot, c) ∈ k.r.slots →
    c.ticket = k.r.xreg rs1 → (∀ p ∈ k.r.slots, p.2.ticket = c.ticket → p = (slot, c)) → (∀ p ∈ k.r.slots, p.1 = slot → p.2 = c) →
    RvWrites s k (.tstat rd rs1) 4 rd (BitVec.ofNat 64 (c.st * 2 ^ 62 + c.flags.toNat * 2 ^ 57 + slot * 2 ^ 54 + c.fcode * 2 ^ 46 +
      c.hinc * 2 ^ 17 + c.rowdone)) { k.r with rowsel := BitVec.ofNat 64 slot } k.g (s.core k.g.core) ∧
    (c.st ≠ 3 → RvOnly s k (.tres rd rs1) 4 rd 1) ∧
    (c.st = 3 → c.atIssue = false → ∃ m, SlotsWith k.r.slots m slot (some { c with st := 1, fcode := 0, waits := [], out := [], bitmap := [] }) ∧
      RvWrites s k (.tres rd rs1) 4 rd 0 { k.r with slots := m } k.g (s.core k.g.core)) ∧
    (c.st = 3 → c.atIssue = true → (c.exp = true → barOpen s k c) →
      (∀ code, tileFault (k.l.node k.g.node) c = some code → ∃ m,
        SlotsWith k.r.slots m slot (some { c with st := 3, fcode := code, atIssue := true, owed := 0 }) ∧
        RvWrites s k (.tres rd rs1) 4 rd 0 { k.r with slots := m } k.g (s.core k.g.core)) ∧
      (tileFault (k.l.node k.g.node) c = none → (c.be && c.exp) = false → ∃ m,
        SlotsWith k.r.slots m slot (some { c with st := 1, fcode := 0, atIssue := false, hinc := if c.descending then c.nrows else 0 }) ∧
        RvWrites s k (.tres rd rs1) 4 rd 0 { k.r with slots := m } k.g (s.core k.g.core)) ∧
      (∀ o, tileFault (k.l.node k.g.node) c = none → (c.be && c.exp) = true → o = readBar k.g c.boff → o.expb + c.total < 2 ^ 32 →
        ∃ m g, SlotsWith k.r.slots m slot (some { c with
            st := 1, fcode := 0, atIssue := false, hinc := if c.descending then c.nrows else 0, owed := c.total }) ∧
          Settles k.g g c.boff (if k.st then 0x4000 else 0x2000) { o with expb := o.expb + c.total } ∧
          RvWrites s k (.tres rd rs1) 4 rd 0 { k.r with slots := m } g (s.core k.g.core))) ∧
    (c.st = 2 → c.early ≠ [] → exec (.tkill rd rs1) s = .next s) ∧
    (c.owed = 0 → (c.st = 2 → c.early = [] ∧ c.out = []) → ∃ m, SlotsWith k.r.slots m slot none ∧
      RvWrites s k (.tkill rd rs1) 4 rd 0 { k.r with slots := m } k.g (s.core k.g.core)) ∧
    (c.owed ≠ 0 → barOpen s k c → (c.st = 2 → c.early = [] ∧ c.out = []) → ∃ m g, SlotsWith k.r.slots m slot none ∧
      Settles k.g g c.boff (if k.st then 0x4000 else 0x2000)
        { readBar k.g c.boff with expb := (readBar k.g c.boff).expb - c.owed } ∧
      RvWrites s k (.tkill rd rs1) 4 rd 0 { k.r with slots := m } g (s.core k.g.core))) ∧
  (∀ (s : State) (k : RvCtx), RvRuns s k → (∀ p ∈ k.r.slots, p.2.st = 3 ∧ p.2.owed = 0) →
    (∃ p ∈ s.cohorts, p.2.grp = k.gid ∧ p.2.ended = false) →
    RvGoes s k .ecall k.g { k.r with mode := .ended, slots := [] } (k.r.pc + 4) (s.core k.g.core))

/-- R164, R310: the TBARs act on the object at rs1[17:0] as BAR's minors do, with the loader or storer core as their agent; an arrival
that the object refuses halts the core with F_BAR, and a TBAR.WAIT on a phase that has not completed waits. -/
def Obligations.LoadersUseBarrierObjects : Prop :=
  ∀ (s : State) (k : RvCtx) (rd rs1 rs2 : XReg) (off : Nat) (o : Bar) (p : Word), RvRuns s k → off = (k.r.xreg rs1).toNat % 2 ^ 18 →
    off % 32 = 0 → off + 32 ≤ (k.l.node k.g.node).spsz → o = readBar k.g off → p = BitVec.ofNat 32 (k.r.xreg rs2).toNat →
    k.g.rangeBad 0 off 32 = false → k.g.portOpen off s.clk (if k.st then 0x8000 else 0x6000) = true →
    (¬ (o.arr = o.expa ∧ o.landb < o.expb) → ∃ g, Settles k.g g off (if k.st then 0x8000 else 0x6000) (arrived o 1) ∧
      RvWrites s k (.tbarArrive rd rs1) 4 rd (BitVec.ofNat 64 o.phase) k.r g (s.core k.g.core)) ∧
    (o.expb + p.toNat < 2 ^ 32 → ∃ g, Settles k.g g off (if k.st then 0x8000 else 0x6000) { o with expb := o.expb + p.toNat } ∧
      RvWrites s k (.tbarExpect rd rs1 rs2) 4 rd (BitVec.ofNat 64 o.phase) k.r g (s.core k.g.core)) ∧
    (phasePast o.phase p →
      (∃ g, g = { waitsDropped k.g (if k.st then 0x8000 else 0x6000) with port := g.port } ∧
        RvWrites s k (.tbarWait rd rs1 rs2) 4 rd (BitVec.ofNat 64 o.phase) k.r g (barAcquired (s.core k.g.core) o p)) ∧
      ∃ g, g = { k.g with port := g.port } ∧
        RvWrites s k (.tbarTest rd rs1 rs2) 4 rd 1 k.r g (barAcquired (s.core k.g.core) o p)) ∧
    (¬ phasePast o.phase p →
      (∃ g, g = { k.g with port := g.port } ∧ RvWrites s k (.tbarTest rd rs1 rs2) 4 rd 0 k.r g (s.core k.g.core)) ∧
      ∃ t g, exec (.tbarWait rd rs1 rs2) s = .next t ∧ t = { s with groups := t.groups } ∧ lookup t.groups k.gid = some g ∧
        g = { k.g with port := g.port, waits := g.waits } ∧
        ∃ w ∈ g.waits, w.agent = (if k.st then 0x8000 else 0x6000) ∧ w.off = off ∧ w.phase = p) ∧
    (o.arr = o.expa → o.landb < o.expb → ∃ t g, exec (.tbarArrive rd rs1) s = .next t ∧ lookup t.groups k.gid = some g ∧
      (g.rv k.st).mode = .halted ∧ (g.rv k.st).hcode = 12 ∧ (g.rv k.st).pc = k.r.pc ∧ g.sp = k.g.sp ∧ SameBytes s t)

/-- R337, R341, R178, R281, R454, R378, R122, R181, R186, R424: what comes back to a cohort. An export writes its register; a result
without an error writes its registers and leaves the pending map; an answered VLDF writes value and status, with status 0 as an
acquire; a parked cohort whose wait has ended is parked no longer; a cohort that has waited its limit is lifted; a trapped cohort
whose turn comes, or whose lane queue has drained, enters its handler. That a wake clears the recorded fault of a page wait, that
wakes and traps wait in a halted group, and that a fault waits for the lane queue, are the model's readings (assumptions 17, 18, 16). -/
def Obligations.WhatComesBackToACohort : Prop :=
  (∀ (s : State) (c : Nat) (co : Cohort) (e : ExportReq) (r : List ExportReq), lookup s.cohorts c = some co → co.exports = e :: r →
    ∃ t co', exec (.exportWrite c) s = .next t ∧ OnlyCohort s t c co' ∧
      co' = { co with s := co'.s, badS := co'.badS, exports := r } ∧ ∀ n, co'.reg n = if n = e.reg then e.val else co.reg n) ∧
  (∀ (s : State) (x : Ctx) (k : Nat) (p : Pending) (i : Instr), Returns s x k p → p.future = false → p.waits = 0 →
    ((i = .loadReturn x.c k .done ∧ p.path ≠ .system) ∨ (i = .systemAccessCompletion x.c k false ∧ p.path = .system)) →
    ∃ t co C, exec i s = .next t ∧ OnlyLocal s t x co C x.g ∧ C = { s.core x.core with latch := C.latch } ∧
      co = { x.co with pend := x.co.pend.filter (fun q => q.tag != p.tag), s := co.s, badS := co.badS, v := co.v, badV := co.badV } ∧
      (∀ n, co.reg n = if p.scalar = true then (lastVal p.vals n).getD (x.co.reg n) else x.co.reg n) ∧
      ∀ n, get 0 co.v n = if p.scalar = true then get 0 x.co.v n else (lastVal p.vals n).getD (get 0 x.co.v n)) ∧
  (∀ (s : State) (x : Ctx) (k : Nat) (p : Pending) (st : Nat) (v : Dword), Returns s x k p → p.future = true → p.answer = some (st, v) →
    p.scalar = false → (∀ l ∈ p.lanes, l < 32) → ∃ t co C, exec (.vldfAnswer x.c k) s = .next t ∧ OnlyLocal s t x co C x.g ∧
      C = { s.core x.core with latch := C.latch, l1d := if st = 0 then [] else (s.core x.core).l1d } ∧
      co = { x.co with pend := x.co.pend.filter (fun q => q.tag != p.tag), v := co.v, badV := co.badV } ∧
      (∀ l ∈ p.lanes, co.vreg p.dreg l = (if st = 0 then BitVec.ofNat 32 v.toNat else 0) ∧
        co.vreg (p.dreg + 1) l = BitVec.ofNat 32 st ∧
        (p.w64 = true → co.vreg (p.dreg + 2) l = if st = 0 then BitVec.ofNat 32 (v.toNat / 2 ^ 32) else 0)) ∧
      ∀ n l, l < 32 → (l ∈ p.lanes → n ≠ p.dreg ∧ n ≠ p.dreg + 1 ∧ (p.w64 = true → n ≠ p.dreg + 2)) → co.vreg n l = x.co.vreg n l) ∧
  (∀ (s : State) (x : Ctx), ctxOf s x.c = some x → x.g.halt = none → x.l.ending = none → x.co.ended = false → waitEnded s x →
    ∃ t, exec (.cohortWake x.c) s = .next t ∧ OnlyCohort s t x.c { x.co with
      park := none, fault := match x.co.park with | some (.page _) => none | _ => x.co.fault }) ∧
  (∀ (s : State) (x : Ctx), ctxOf s x.c = some x →
    (Config.starvationClk ≤ x.co.waitS → x.co.liftS = false →
      ∃ t, exec (.starvationLift x.c false) s = .next t ∧ OnlyCohort s t x.c { x.co with liftS := true }) ∧
    (Config.starvationClk ≤ x.co.waitL → x.co.liftL = false →
      ∃ t, exec (.starvationLift x.c true) s = .next t ∧ OnlyCohort s t x.c { x.co with liftL := true })) ∧
  (∀ (s : State) (x : Ctx), ctxOf s x.c = some x → x.l.ending = none → x.co.ended = false →
    (x.co.park = some .handler → x.co.halted = false → x.g.halt = none →
      (∀ p ∈ s.cohorts, p.1 ≠ x.c → p.2.grp = x.co.grp →
        (p.2.handler = false ∨ p.2.ended = true) ∧ (p.2.park = some .handler → x.co.ix ≤ p.2.ix)) →
      ∃ t, exec (.trapEntry x.c) s = .next t ∧ OnlyCohort s t x.c { x.co with
        shadow := (List.range 16).map (fun i => x.co.reg (48 + i)), gap := 0, handler := true, park := none,
        spc := BitVec.ofNat 32 (x.co.hbase.toNat % 2 ^ 32 / 4 * 4), cb := BitVec.ofNat 28 (x.co.hbase.toNat / 2 ^ 32) }) ∧
    (∀ f, x.co.fault = some f → x.co.park = none → x.co.halted = false → x.co.laneIdle = true → x.co.handler = false →
      nothingSent s x → (s.tenant x.t).thctl.getLsbD 16 = true → (s.tenant x.t).thctl.toNat % 65536 ≠ 0 →
      (∀ p ∈ s.cohorts, p.1 ≠ x.c → p.2.grp = x.co.grp → p.2.handler = false ∧ p.2.park ≠ some .handler) →
      ∃ t, exec (.trapEntry x.c) s = .next t ∧
        OnlyLocal s t x { inHandler s x f.code f.src f.xpc f.lo f.hi with xlw := BitVec.ofNat 32 f.xlw }
          (latchFreed (s.core x.core) x.c) (waitsDropped x.g x.co.ix)))

/-- R119, R77, R75, R78, R82, R87, R90, R62, R133, R454, R457, R455: what happens to requests at their targets. A write, an atomic and
a reduction change the bytes that they name and no other; an atomic's old word goes back to its cohort; a fill answers every request
held on its cell; a future request is answered, held, or cancelled where none can be held; a keyed addition is kept until the flush
of its launch; a line may leave the L1D; a write or a reduction to another package is performed there, or counted as refused or lost. That
such a write is performed at its acknowledgement, that the answer is an operand of the event, and that a VLDF waits behind an earlier one
of its cohort, are the model's readings (assumptions 22, 28, 54). -/
def Obligations.RequestsArePerformedAtTheirTargets : Prop :=
  (∀ (s : State) (core k : Nat) (r : StoreReq), (s.core core).stores[k]? = some r → r.cells ≠ [] → r.fill = false →
    plainTarget s (storePas r) → earlierFollows s ((s.core core).stores.take k) r = false →
    ∃ t, exec (.homeSliceWrite core k) s = .next t ∧ OnlyWritten s t ∧ t.cohorts = s.cohorts ∧
      (∀ a, readByte t a = (lastCell r.cells a).getD (readByte s a)) ∧
      t.core core = { s.core core with stores := (s.core core).stores.eraseIdx k } ∧ ∀ j, j ≠ core → t.core j = s.core j) ∧
  (∀ (s : State) (core k : Nat) (r : StoreReq), (s.core core).stores[k]? = some r → r.cells ≠ [] → r.fill = false →
    placeOf s (storePa r) = .system → (∀ c ∈ r.cells, s.badLines.contains (c.1 / 64) = false) →
    earlierFollows s ((s.core core).stores.take k) r = false →
    ∃ t, exec (.homeSliceWrite core k) s = .next t ∧
      t = { s with mem := t.mem, cores := t.cores, sysOut := s.sysOut ++ [⟨(s.tenant r.t).vf, storePa r % 2 ^ 50, 0, r.cells⟩] } ∧
      (∀ a, readByte t a = (lastCell r.cells a).getD (readByte s a)) ∧
      t.core core = { s.core core with stores := (s.core core).stores.eraseIdx k } ∧ ∀ j, j ≠ core → t.core j = s.core j) ∧
  (∀ (s : State) (core k p : Nat) (r : StoreReq), (s.core core).stores[k]? = some r → r.cells ≠ [] → r.fill = false →
    placeOf s (storePa r) = .remote p → cutOff s (storePa r) = false → (∀ c ∈ r.cells, s.badLines.contains (c.1 / 64) = false) →
    earlierFollows s ((s.core core).stores.take k) r = false →
    ∃ t, exec (.remoteWriteAcknowledgement core k false) s = .next t ∧
      t = { s with mem := t.mem, cores := t.cores,
                   link := { s.link with out := s.link.out ++ [⟨p, (s.tenant r.t).tldkey, storePa r % 2 ^ 40, 0, r.cells⟩] } } ∧
      (∀ a, readByte t a = (lastCell r.cells a).getD (readByte s a)) ∧
      t.core core = { s.core core with stores := (s.core core).stores.eraseIdx k } ∧ ∀ j, j ≠ core → t.core j = s.core j) ∧
  (∀ (s : State) (core k : Nat) (r : StoreReq), (s.core core).stores[k]? = some r → toRemote s r = true →
    (s.tenant r.t).tlref ≠ 0xFFFFFFFF → earlierFollows s ((s.core core).stores.take k) r = false →
    ∃ t, exec (.remoteWriteAcknowledgement core k true) s = .next t ∧ CountedLost s t r.t core
      { s.core core with stores := (s.core core).stores.eraseIdx k }) ∧
  (∀ (s : State) (core k : Nat) (r : StoreReq), (s.core core).stores[k]? = some r → toRemote s r = true →
    (s.tenant r.t).tlref ≠ 0xFFFFFFFF →
    ∃ t, exec (.remoteTimeout core k) s = .next t ∧ CountedLost s t r.t core
      { s.core core with stores := (s.core core).stores.eraseIdx k }) ∧
  (∀ (s : State) (core j : Nat) (q : RedReq), (s.core core).reds[j]? = some q → remotePa s q.pa = true →
    (s.tenant q.t).tlref ≠ 0xFFFFFFFF → redWaits s (s.core core) q = false →
    ∃ t, exec (.remoteWriteAcknowledgement core ((s.core core).stores.length + j) true) s = .next t ∧ CountedLost s t q.t core
      { s.core core with reds := (s.core core).reds.eraseIdx j }) ∧
  (∀ (s : State) (core j : Nat) (q : RedReq), (s.core core).reds[j]? = some q → remotePa s q.pa = true →
    (s.tenant q.t).tlref ≠ 0xFFFFFFFF →
    ∃ t, exec (.remoteTimeout core ((s.core core).stores.length + j)) s = .next t ∧ CountedLost s t q.t core
      { s.core core with reds := (s.core core).reds.eraseIdx j }) ∧
  (∀ p ∈ atomForms, ∀ (s : State) (core k n old : Nat) (q : AtomReq), (s.core core).atoms[k]? = some q → q.code = p.1 →
    n = (if q.w64 then 8 else 4) → plainTarget s (span q.pa n) → old = leNat (readMem s q.pa n) →
    mustWait s (s.core core) q.c q.seq q.tag (span q.pa n) true = false →
    ∃ t, exec (.sliceAtomic core k) s = .next t ∧ OnlyWritten s t ∧
      (∀ b, readByte t b = storedByte q.pa n (p.2 (8 * n) old q.a.toNat q.b.toNat) b (readByte s b)) ∧
      t.core core = { s.core core with atoms := (s.core core).atoms.eraseIdx k,
                                       l1d := (s.core core).l1d.filter (fun l => l.pa != q.pa / 64 * 64) } ∧
      (∀ j, j ≠ core → t.core j = s.core j) ∧
      (∀ co, lookup s.cohorts q.c = some co → lookup t.cohorts q.c = some { co with pend := co.pend.map (fun e =>
        if e.tag = q.tag then { e with waits := e.waits - 1, vals := e.vals ++ oldWords q.keys old } else e) }) ∧
      ∀ j, j ≠ q.c → lookup t.cohorts j = lookup s.cohorts j) ∧
  (∀ p ∈ atomForms, ∀ (s : State) (core k n : Nat) (q : RedReq), (s.core core).reds[k]? = some q → q.code = p.1 → p.1 ≠ 9 →
    n = (if q.w64 then 8 else 4) → plainTarget s (span q.pa n) → redWaits s (s.core core) q = false →
    ∃ t, exec (.reductionApply core k) s = .next t ∧ OnlyWritten s t ∧ t.cohorts = s.cohorts ∧
      (∀ b, readByte t b = storedByte q.pa n (p.2 (8 * n) (leNat (readMem s q.pa n)) q.val.toNat 0) b (readByte s b)) ∧
      t.core core = { s.core core with reds := (s.core core).reds.eraseIdx k,
                                       l1d := (s.core core).l1d.filter (fun l => l.pa != q.pa / 64 * 64) } ∧
      ∀ j, j ≠ core → t.core j = s.core j) ∧
  (∀ (s : State) (core k pa H : Nat) (v : Dword) (r : StoreReq), (s.core core).stores[k]? = some r → r.fill = true →
    r.cells = cellsOf pa (leBytes 16 (v.toNat + 2 ^ 64)) → pa % 16 = 0 → placeOf s pa = .hbm → homeReady s pa = true → H = homeSlice pa →
    earlierFollows s ((s.core core).stores.take k) r = false → s.badLines.contains (pa / 64) = false →
    (∀ q ∈ (s.slice H).held, q.pa % 16 = 0 ∧ q.pkg = none) → (s.tenant r.t).trctl.getLsbD 0 = false →
    ∃ t, exec (.homeSliceWrite core k) s = .next t ∧ cellState t pa = 1 ∧ cellValue t pa = v ∧
      (∀ q, q ∈ (t.slice H).held ↔ q ∈ (s.slice H).held ∧ q.pa ≠ pa) ∧
      ∀ q ∈ (s.slice H).held, q.pa = pa → ∀ co, lookup t.cohorts q.c = some co →
        ∀ e ∈ co.pend, e.tag = q.tag → e.future = true → e.answer = some (0, v)) ∧
  (∀ (s : State) (core k : Nat) (q : FutReq) (x : Ctx), (s.core core).freqs[k]? = some q → ctxOf s q.c = some x → q.pkg = none →
    x.g.save = false → placeOf s q.pa = .hbm → homeReady s q.pa = true → rangeBad s q.pa 16 = false → q.away = false →
    futureWaits s (s.core core) q = false →
    ∃ t, exec (.futureRequest core k) s = .next t ∧ SameBytes s t ∧
      t.core core = { s.core core with freqs := (s.core core).freqs.eraseIdx k } ∧ (∀ j, j ≠ core → t.core j = s.core j) ∧
      (cellState s q.pa ≠ 0 → ∀ co, lookup t.cohorts q.c = some co → ∀ e ∈ co.pend, e.tag = q.tag → e.future = true →
        e.answer = some (0, cellValue s q.pa)) ∧
      (cellState s q.pa = 0 → (s.slice (homeSlice q.pa)).held.length < Config.deferralEntries →
        lookup t.cohorts q.c = some { x.co with
          pend := x.co.pend.map (fun e => if e.future = true ∧ q.tag ≤ e.tag then { e with waits := 0 } else e) } ∧
        (∀ j, j ≠ q.c → lookup t.cohorts j = lookup s.cohorts j) ∧
        (t.slice (homeSlice q.pa)).held = (s.slice (homeSlice q.pa)).held ++ [{ q with at_ := s.clk }]) ∧
      (cellState s q.pa = 0 → Config.deferralEntries ≤ (s.slice (homeSlice q.pa)).held.length → ∀ co, lookup t.cohorts q.c = some co →
        ∀ e ∈ co.pend, e.tag = q.tag → e.future = true → e.answer = some (1, 0))) ∧
  (∀ (s : State) (core k : Nat) (e : RedoEntry) (l : Launch), (s.core core).redos[k]? = some e → lookup s.launches e.slot = some l →
    homeReady s e.pa = true → (s.slice (homeSlice e.pa)).redo.length < Config.redoEntries →
    ∃ t, exec (.vredoEntry core k) s = .next t ∧ t = { s with cores := t.cores, slices := t.slices } ∧
      t.core core = { s.core core with redos := (s.core core).redos.eraseIdx k } ∧ (∀ j, j ≠ core → t.core j = s.core j) ∧
      t.slice (homeSlice e.pa) = { s.slice (homeSlice e.pa) with redo := (s.slice (homeSlice e.pa)).redo ++ [e] } ∧
      ∀ j, j ≠ homeSlice e.pa → t.slice j = s.slice j) ∧
  (∀ (s : State) (sl slot : Nat) (l : Launch), lookup s.launches slot = some l → flushWanted s sl slot = true →
    ∃ t, exec (.orderedFlush sl slot) s = .next t ∧
      (t.slice sl).redo = (s.slice sl).redo.filter (fun e => e.slot != slot) ∧
      t.queues = s.queues.map (fun q => (q.1, { q.2 with window := q.2.window.map (packetFlushed sl slot) })) ∧
      ∀ e, (s.slice sl).redo.filter (fun e => e.slot == slot) = [e] → (s.tenant l.t).area = none → e.ty = 0 → canonPa s e.pa = e.pa →
        plainTarget s (span e.pa 4) → inWritableWindow (s.tenant l.t) e.pa 4 = true →
        ∀ b, readByte t b = storedByte e.pa 4 (fadd f32 0 false (leNat (readMem s e.pa 4)) e.val.toNat).1 b (readByte s b)) ∧
  (∀ (s : State) (core k : Nat), ∃ t, exec (.l1dLineExpiry core k) s = .next t ∧ t = { s with cores := t.cores } ∧
    t.core core = { s.core core with l1d := (s.core core).l1d.eraseIdx k } ∧ ∀ j, j ≠ core → t.core j = s.core j)

/-- R150, R154, R156, R157, R162, R457: a command other than a TLDS starts in ticket order behind its fences; a row of TLD lands in its
local space and a row of TST in memory, each at the place that the descriptor gives, and the row is complete and counted; a command
whose next row faults, or is refused by another package, stops there; one whose rows are complete leaves its slot. That a row of TST is
written to memory at once is the model's reading (assumption 67), what tqva shows of a fault in a local space its choice (assumption
62). The rows of TLDT, TGATH and TCOPY, and the run of a TLDS, are not stated here. -/
def Obligations.TileCommandsRunRowByRow : Prop :=
  (∀ (s : State) (k : RvCtx) (slot : Nat) (c : TileCmd), CmdAt s k slot c → c.st = 1 → c.kind ≠ 2 →
    (∀ p ∈ k.r.slots, (p.2.st = 1 → c.ticket.toNat ≤ p.2.ticket.toNat) ∧ c.fwait.toNat ≤ p.2.ticket.toNat) →
    ∃ t, exec (.tileCommandStart k.gid k.st slot) s = .next t ∧ SlotBecomes s t k slot (some { c with st := 2 }) k.g ∧ SameBytes s t) ∧
  (∀ (s : State) (k : RvCtx) (slot pa : Nat) (c : TileCmd), CmdAt s k slot c → c.st = 2 → c.kind = 0 → c.spc = 0 → c.rowdone < c.nrows →
    c.doneRows = [] → c.hinc = 0 → c.early = [] → barOpen s k c → cmdWaits s k c = false →
    tileRead s k (c.rowA c.rowdone) c.rowb 16 = .ok [(pa, c.rowb)] → storesOff s k.g.core (span pa c.rowb) = true →
    ∃ t g1 g2, exec (.tileRowComplete k.gid k.st slot c.rowdone false) s = .next t ∧ SameBytes s t ∧
      g1 = { k.g with sp := g1.sp, bad := g1.bad } ∧
      (∀ a, get 0 g1.sp a = if c.lo + c.rowdone * c.ls ≤ a ∧ a < c.lo + c.rowdone * c.ls + c.rowb
        then readByte s (pa + (a - (c.lo + c.rowdone * c.ls))) else get 0 k.g.sp a) ∧
      ((c.be = false ∨ (readBar g1 c.boff).landb + c.rowb ≤ (readBar g1 c.boff).expb) → Counted k c g1 g2 1 c.rowb ∧
        SlotBecomes s t k slot (some { c with rowdone := c.rowdone + 1, owed := c.owed - c.rowb, held := erase c.held c.rowdone }) g2)) ∧
  (∀ (s : State) (k : RvCtx) (slot pa : Nat) (c : TileCmd), CmdAt s k slot c → c.st = 2 → c.kind = 4 → c.rowdone < c.nrows →
    c.doneRows = [] → c.hinc = 0 → c.early = [] → barOpen s k c → cmdWaits s k c = false →
    tileXlat s k (c.rowA c.rowdone) c.rowb 16 .write = .ok [(pa, c.rowb)] →
    localFault s k c.spc (c.lo + c.rowdone * c.ls) c.rowb = none → storesOff s k.g.core (span pa c.rowb) = true →
    plainTarget s (span pa c.rowb) →
    ∃ t, exec (.tileRowComplete k.gid k.st slot c.rowdone false) s = .next t ∧
      (∀ a, readByte t a = if pa ≤ a ∧ a < pa + c.rowb then get 0 (k.g.space c.spc) (c.lo + c.rowdone * c.ls + (a - pa)) else readByte s a) ∧
      SlotBecomes s t k slot (some { c with rowdone := c.rowdone + 1, held := erase c.held c.rowdone }) k.g) ∧
  (∀ (s : State) (k : RvCtx) (slot : Nat) (c : TileCmd) (f : AccFault) (refused : Bool), CmdAt s k slot c → c.st = 2 → (c.kind = 0 ∨ c.kind = 3 ∨ c.kind = 4) →
    c.rowdone < c.nrows → c.out = [] → c.early = [] → cmdWaits s k c = false → rowFault s k c c.rowdone = some f → f.code ≠ 6 → f.code ≠ 0 →
    f.pte = none → f.spot = none →
    ∃ t, exec (.tileCommandStop k.gid k.st slot refused) s = .next t ∧ SameBytes s t ∧
      SlotBecomes s t k slot (some { c with st := 3, fcode := f.code, tqva := BitVec.ofNat 64 (f.lo.toNat + f.hi.toNat * 2 ^ 32), waits := [] }) k.g) ∧
  (∀ (s : State) (k : RvCtx) (slot pa p : Nat) (c : TileCmd), CmdAt s k slot c → c.st = 2 → c.kind = 0 → c.rowdone < c.nrows → c.out = [] →
    c.early = [] → cmdWaits s k c = false → tileRead s k (c.rowA c.rowdone) c.rowb 16 = .ok [(pa, c.rowb)] → placeOf s pa = .remote p →
    ∃ t, exec (.tileCommandStop k.gid k.st slot true) s = .next t ∧ SameBytes s t ∧
      SlotBecomes s t k slot (some { c with st := 3, fcode := 5, tqva := BitVec.ofNat 64 (c.rowA c.rowdone), waits := [] }) k.g) ∧
  (∀ (s : State) (k : RvCtx) (slot : Nat) (c : TileCmd), CmdAt s k slot c → c.st = 2 → c.kind ≠ 2 → c.nrows ≤ c.rowdone →
    (c.kind = 0 ∨ c.kind = 1 ∨ c.kind = 3 ∨ c.be = false ∨
      (barOpen s k c ∧ (readBar k.g c.boff).landb + c.total ≤ (readBar k.g c.boff).expb)) →
    ∃ t g, exec (.tileCommandComplete k.gid k.st slot) s = .next t ∧ SameBytes s t ∧ SlotBecomes s t k slot none g ∧
      ((c.kind = 0 ∨ c.kind = 1 ∨ c.kind = 3) → g = k.g) ∧ ((c.kind = 4 ∨ c.kind = 5) → Counted k c k.g g c.wide c.total))

/-- R397, R390, R410, R259, R399, R392, R252, R55: a step of the engine writes the accumulators of one block, or for MRES of one column,
and no other byte of CBUF, and moves its operation on, in I8 by the exact sum of the products; an operation that has waited is granted its block; a finished operation
leaves its flags to its batch; a batch that completes is counted, frees its regions of CBUF and gives its flags to FPF. -/
def Obligations.TheMatrixEngineRunsItsOperations : Prop :=
  (∀ (s : State) (core : Nat) (x : Ctx) (m : MatOp), EngineHas s core x m → m.opc ≠ 0x52 → rangesBad x.g (stepRanges m ++ stepCRanges m) = none →
    (∀ p ∈ s.cohorts, p.2.grp = x.co.grp → p.2.heldOps = []) → ∃ t g m', exec (.matrixStep core) s = .next t ∧ SameBytes s t ∧ t.cohorts = s.cohorts ∧ (t.core core).engine = [m'] ∧
      m' = { nextStep m with seen := m'.seen, flags := m'.flags, old := m'.old } ∧ lookup t.groups x.co.grp = some g ∧
      g = { x.g with cb := g.cb, bad := g.bad, racy := g.racy } ∧
      (∀ a, (∀ r ∈ m.blockRows, ∀ n ∈ m.blockCols, a < m.cAt r n ∨ m.cAt r n + 4 ≤ a) → get 0 g.cb a = get 0 x.g.cb a) ∧
      (m.opc = 0x50 → m.at_ = 4 → m.zeroC = true → m.g = 0 → m.seen = [] → m.old = [] → opFault x.node m = none →
        ∀ r ∈ m.blockRows, ∀ n ∈ m.blockCols, leNat (bytesAt g.cb (m.cAt r n) 4) =
          (((List.range 16).map (fun i => int8At x.g.ab (m.aAt r + i) * int8At x.g.wb (m.bAt n + i))).sum % 2 ^ 32).toNat)) ∧
  (∀ (s : State) (core n col : Nat) (x : Ctx) (m : MatOp) (aAt : Nat → Nat), EngineHas s core x m → m.opc = 0x52 → m.seen = [] → m.old = [] →
    n = (get 0 x.g.wb (m.entryAt + 4)).toNat → col = (get 0 x.g.wb (m.entryAt + 5)).toNat →
    (∀ r, aAt r = m.aBase + r * m.aStride + col * codeBits m.at_ / 8) →
    x.g.rangeBad 1 m.entryAt 8 = false → (∀ p ∈ s.cohorts, p.2.grp = x.co.grp → p.2.heldOps = []) →
    ((leNat (bytesAt x.g.wb (m.entryAt + 6) 2) ≠ 0 ∨ m.cStride < 4 * n + 4 ∨ m.aStride * 8 < (col + 1) * codeBits m.at_) →
      ∃ t m', exec (.matrixStep core) s = .next t ∧ SameBytes s t ∧ (t.core core).engine = [m'] ∧
        m' = { m with bad := some 4, seen := m'.seen } ∧ lookup t.groups x.co.grp = some x.g) ∧
    (leNat (bytesAt x.g.wb (m.entryAt + 6) 2) = 0 → 4 * n + 4 ≤ m.cStride → (col + 1) * codeBits m.at_ ≤ m.aStride * 8 →
      (∀ r < m.rows, x.g.rangeBad 2 (aAt r) (max 1 (codeBits m.at_ / 8)) = false ∧ x.g.rangeBad 3 (m.cAt r n) 4 = false) →
      ∃ t g m', exec (.matrixStep core) s = .next t ∧ SameBytes s t ∧ t.cohorts = s.cohorts ∧ (t.core core).engine = [m'] ∧
        m' = { m with ent := m.ent + 1, granted := false, seen := m'.seen, flags := m'.flags } ∧ lookup t.groups x.co.grp = some g ∧
        g = { x.g with cb := g.cb, bad := g.bad, racy := g.racy } ∧
        (∀ a, (∀ r < m.rows, a < m.cAt r n ∨ m.cAt r n + 4 ≤ a) → get 0 g.cb a = get 0 x.g.cb a) ∧
        (m.at_ = 4 → ∀ r < m.rows, leNat (bytesAt g.cb (m.cAt r n) 4) =
          (((leNat (bytesAt x.g.cb (m.cAt r n) 4) : Nat) + int8At x.g.ab (aAt r) *
            Int.bmod (leNat (bytesAt x.g.wb m.entryAt 4)) (2 ^ 32)) % 2 ^ 32).toNat))) ∧
  (∀ (s : State) (core k : Nat) (m : MatOp), (s.core core).engine[k]? = some m → m.finished = false → Config.longClk ≤ m.since →
    (s.core core).running ≠ some k → ∃ t, exec (.engineWaitGrant core k) s = .next t ∧ t = { s with cores := t.cores } ∧
      (∀ j, j ≠ core → t.core j = s.core j) ∧
      t.core core = { s.core core with engine := (t.core core).engine } ∧
      (t.core core).engine[k]? = some { m with granted := true, since := 0 } ∧
      ∀ j, j ≠ k → (t.core core).engine[j]? = (s.core core).engine[j]?) ∧
  (∀ (s : State) (core : Nat) (pre post : List MatOp) (m : MatOp) (co : Cohort), (s.core core).engine = pre ++ m :: post →
    (∀ q ∈ pre, q.finished = false) → m.finished = true → lookup s.cohorts m.c = some co →
    ∃ t co', exec (.matrixOpFinish core) s = .next t ∧ t = { s with cores := t.cores, cohorts := t.cohorts } ∧
      (t.core core).engine = pre ++ post ∧ (∀ j, j ≠ core → t.core j = s.core j) ∧ lookup t.cohorts m.c = some co' ∧
      (∀ j, j ≠ m.c → lookup t.cohorts j = lookup s.cohorts j) ∧
      co' = { co with bflags := co.bflags ++ [(m.batch, m.flags)], frep := co'.frep } ∧ (m.bad = none → co'.frep = co.frep) ∧
      (∀ code, m.bad = some code → co.frep = none → co'.frep = some (m.batch, code, m.ix))) ∧
  (∀ (s : State) (x : Ctx) (b : Word) (fl : Sticky), ctxOf s x.c = some x → x.co.ended = false → x.co.lcom ≠ x.co.lcpl → b = x.co.lcpl + 1 →
    (∀ q ∈ (s.core x.core).engine, q.c = x.c → q.batch ≠ b) → (∀ q ∈ x.co.heldOps, q.batch ≠ b) →
    fl = allFlags ((x.co.bflags.filter (fun f => f.1 == b)).map (·.2)) →
    ∃ t, exec (.batchComplete x.c) s = .next t ∧ OnlyCohort s t x.c { x.co with
      lcpl := b, bflags := x.co.bflags.filter (fun f => f.1 != b), locks := x.co.locks.filter (fun l => l.1 != b),
      fpf := x.co.fpf ||| fl.setWidth 32 })

/-- R20, R34, R25, R31, R32, R84, R37, R38: a walk follows one entry of each table to its leaf, and PAGE_WALK puts what it or the die's
cache finds into the core's buffer; a fault is posted to its tenant's ring with a message; an accepted entry is closed and its page's
translations leave the caches, a rejected one gives its cohort the trap; TXCTL, TXFRT and TXINV do what their bits say, the clearing of
EN leaving no entry open; a completed invalidation leaves nothing cached that it covers. That TXFRH and TXFRT are kept modulo the ring's
size, and the drain that ends an invalidation, are the model's readings (assumption 39); that a table entry is read at any address in a
window is its choice (assumption 51). -/
def Obligations.TranslationEventsTakeEffect : Prop :=
  (∀ (s : State) (die t va : Nat) (k : AccessKind) (tbl pte at_ : Nat → Nat) (wr : Bool), (s.die die).tables = [] → va < 2 ^ 60 →
    tbl 3 = (s.tenant t).txroot.toNat / 2 ^ 14 % 2 ^ 38 * 2 ^ 14 →
    (∀ l < 4, at_ l = tbl l + va / 2 ^ (16 + 11 * l) % 2 ^ 11 * 8 ∧ inWindow (s.tenant t) (at_ l) 8 = true ∧
      rangeBad s (canonPa s (at_ l)) 8 = false ∧ leNat (readMem s (canonPa s (at_ l)) 8) = pte l ∧ pte l % 2 = 1 ∧
      pte l / 2 ^ 52 % 16 = 0 ∧ pte l / 2 ^ 10 % 16 = 0 ∧ pte l / 2 ^ 5 % 4 = 0) →
    (∀ l < 3, pte (l + 1) / 2 % 2 = 0 ∧ tbl l = pte (l + 1) / 2 ^ 14 % 2 ^ 38 * 2 ^ 14) → pte 0 / 2 % 2 = 1 →
    pte 0 / 2 ^ 14 % 4 = 0 → pte 0 / 2 ^ 8 % 4 ≠ 3 → (pte 0 / 2 ^ 50 % 4 = 1 → pte 0 / 2 ^ 8 % 4 = 2) → allowed (pte 0) k = true →
    reservedPa (pte 0 / 2 ^ 16 % 2 ^ 36 * 2 ^ 16) = false → windowCover (s.tenant t) (pte 0 / 2 ^ 16 % 2 ^ 36 * 2 ^ 16) 65536 = some wr →
    ∃ ts, walk s die t va k = .ok (⟨t, va / 65536 * 65536, 16, pte 0 / 2 ^ 16 % 2 ^ 36 * 2 ^ 16, BitVec.ofNat 64 (pte 0), wr⟩, ts)) ∧
  (∀ (s : State) (core t : Nat) (va : Dword) (kind : AccessKind) (e : TlbEntry), va.toNat < 2 ^ 60 →
    (∀ x ∈ (s.core core).tlb, x.hits t va.toNat = false) →
    ((s.die (core / 128)).leaf.find? (fun x => x.hits t va.toNat) = some e ∨
      ((s.die (core / 128)).leaf.find? (fun x => x.hits t va.toNat) = none ∧ ∃ ts, walk s (core / 128) t va.toNat kind = .ok (e, ts))) →
    ∃ u, exec (.pageWalk core t va kind) s = .next u ∧ u = { s with cores := u.cores, dies := u.dies, tenants := u.tenants } ∧
      SameTenants s u ∧ (∀ j, j ≠ core → u.core j = s.core j) ∧ u.core core = { s.core core with tlb := (u.core core).tlb } ∧
      ((s.core core).tlb.length < Config.tlbEntries → (u.core core).tlb = (s.core core).tlb ++ [e]) ∧ e ∈ (u.core core).tlb) ∧
  (∀ (s : State) (t k size pa vec : Nat) (e : FaultEntry), ((s.tenant t).faults.filter (fun e => e.seq.isNone))[k]? = some e →
    size = 2 ^ ((s.tenant t).txctl.toNat / 2 ^ 20 % 16 + 4) → pa = canonPa s (frBase (s.tenant t)) + 32 * ((s.tenant t).txfrh % size) →
    inWritableWindow (s.tenant t) (frBase (s.tenant t)) (32 * size) = true → ((s.tenant t).txfrh + 1) % size ≠ (s.tenant t).txfrt % size →
    cutOff s (frBase (s.tenant t)) = false → plainTarget s (span pa 32) → vec = (s.tenant t).txctl.toNat / 2 ^ 8 % 2 ^ 12 →
    vec < (if (s.tenant t).vf = 0 then 2048 else 256) → vecMasked s (s.tenant t).vf vec = false →
    ∃ u, exec (.faultRingPost t k) s = .next u ∧
      (∀ a, readByte u a = storedByte pa 32 (faultNat e (s.tenant t).fseq) a (readByte s a)) ∧
      u.tenant t = { s.tenant t with
        txfrh := ((s.tenant t).txfrh + 1) % size, fseq := (s.tenant t).fseq + 1,
        faults := (s.tenant t).faults.map (fun x => if x.id = e.id then { x with seq := some (s.tenant t).fseq } else x) } ∧
      (∀ j, j ≠ t → u.tenant j = s.tenant j) ∧ u.msgs = s.msgs ++ [((s.tenant t).vf, vec)]) ∧
  (∀ (s : State) (t : Nat) (v : Dword),
    ((s.tenant t).txctl.getLsbD 0 = false → v.getLsbD 0 = true → ∃ u A, exec (.txctlWrite t v) s = .next u ∧
      TenantBecomes s u t { s.tenant t with txctl := v &&& 0xFFFF01, fseq := 0, txfrh := 0, txfrt := 0,
                                             area := (u.tenant t).area, areaUsed := A }) ∧
    ((s.tenant t).txctl.getLsbD 0 = v.getLsbD 0 → ∃ u, exec (.txctlWrite t v) s = .next u ∧
      TenantBecomes s u t { s.tenant t with txctl := v &&& 0xFFFF01 }) ∧
    ((s.tenant t).txctl.getLsbD 0 = true → v.getLsbD 0 = false → tenantCohorts s t = [] →
      (∀ e ∈ (s.tenant t).faults, waitingCohorts s e.id = [] ∧
        ∀ g ∈ s.groups, ∀ c ∈ g.2.loader.slots ++ g.2.storer.slots, ∀ w ∈ c.2.waits, w.id ≠ e.id) →
      ∃ u, exec (.txctlWrite t v) s = .next u ∧ TenantBecomes s u t { s.tenant t with txctl := v &&& 0xFFFF01, faults := [] })) ∧
  (∀ (s : State) (t size x : Nat) (v : Dword), size = frSize (s.tenant t) → x = v.toNat % 2 ^ 19 → x < size →
    (s.tenant t).txfrt ≤ x → x ≤ (s.tenant t).txfrh → (s.tenant t).txfrh < size →
    ∃ u, exec (.txfrtWrite t v) s = .next u ∧ TenantBecomes s u t { s.tenant t with txfrt := x }) ∧
  (∀ (s : State) (t : Nat) (seq : Word) (e : FaultEntry), (s.tenant t).faults.find? (fun e => e.seq == some seq) = some e →
    (∃ u, exec (.txfresAccept t seq) s = .next u ∧ u = { s with cores := u.cores, dies := u.dies, tenants := u.tenants } ∧
      u.tenant t = { s.tenant t with faults := (s.tenant t).faults.filter (fun x => x.id != e.id) } ∧
      (∀ x ∈ (u.core e.core).tlb, x.hits t e.va = false) ∧ ∀ x ∈ (u.die (e.core / 128)).leaf, x.hits t e.va = false) ∧
    (∀ x f, ctxOf s x.c = some x → waitingCohorts s e.id = [x.c] → x.co.fault = some f → x.co.exports = [] → nothingSent s x →
      x.co.handler = false → x.g.halt = none → (∀ g ∈ s.groups, ∀ c ∈ g.2.loader.slots ++ g.2.storer.slots, ∀ w ∈ c.2.waits, w.id ≠ e.id) →
      (s.tenant x.t).thctl.getLsbD 16 = true → (s.tenant x.t).thctl.toNat % 65536 ≠ 0 →
      (∀ p ∈ s.cohorts, p.1 ≠ x.c → p.2.grp = x.co.grp → p.2.handler = false ∧ p.2.park ≠ some .handler) →
      ∃ u, exec (.txfresReject t seq) s = .next u ∧ SameBytes s u ∧
        u.tenant t = { s.tenant t with faults := (s.tenant t).faults.filter (fun x => x.id != e.id), caps := (u.tenant t).caps } ∧
        lookup u.cohorts x.c = some { inHandler s x f.code f.src f.xpc f.lo f.hi with xlw := BitVec.ofNat 32 f.xlw } ∧
        ∀ k, k ≠ x.c → lookup u.cohorts k = lookup s.cohorts k)) ∧
  (∀ (s : State) (t : Nat) (page : BitVec 44) (kind : BitVec 2),
    ((s.tenant t).inv = none →
      (∃ u, exec (.txinvAll t) s = .next u ∧ TenantBecomes s u t { s.tenant t with inv := some 0, invn := (s.tenant t).txinvn }) ∧
      (∃ u, exec (.txinvRange t page) s = .next u ∧
        TenantBecomes s u t { s.tenant t with inv := some (BitVec.ofNat 64 (2 ^ 62 + page.toNat * 65536)), invn := (s.tenant t).txinvn }) ∧
      (2 ≤ kind.toNat → ∃ u, exec (.txinvNone t kind) s = .next u ∧ TenantBecomes s u t (s.tenant t))) ∧
    ((s.tenant t).inv ≠ none → ∀ i ∈ [Instr.txinvAll t, .txinvRange t page], ∃ u, exec i s = .next u ∧
      TenantBecomes s u t { s.tenant t with lost := true }) ∧
    ((s.tenant t).inv ≠ none → 2 ≤ kind.toNat → ∃ u, exec (.txinvNone t kind) s = .next u ∧
      TenantBecomes s u t { s.tenant t with lost := true })) ∧
  (∀ (s : State) (t : Nat) (v : Dword), (s.tenant t).inv = some v →
    stillOut (((s.launches.filter (fun l => l.2.t == t)).map (·.1)).foldl (fun s k => drainTenant s t k) s) t (invCovers v (s.tenant t).invn) = false →
    ∃ u, exec (.invalidationComplete t) s = .next u ∧ (u.tenant t).inv = none ∧
      ∀ c, (∀ x ∈ (u.core c).tlb, x.t = t → ¬ coveredBy v (s.tenant t).invn x.va (2 ^ x.sz)) ∧
        (∀ x ∈ (u.core c).l1d, x.t = t → ¬ coveredBy v (s.tenant t).invn x.va 64) ∧
        (∀ x ∈ (u.core c).sic ++ (u.core c).lic, x.t = t → ¬ coveredBy v (s.tenant t).invn x.va 64) ∧
        ∀ x ∈ (u.die c).leaf, x.t = t → ¬ coveredBy v (s.tenant t).invn x.va (2 ^ x.sz))

/-- R451, R452, R7, R24, R423, R439, R502, R450, R456, R457, R458, R466: PKGCTL, TLBIND and the plain registers of a tenant take the bits that they
have, and a host read gives them back; the aperture reaches memory at HBAP; an admitted access of another package is performed and
answered, any other is refused; a port fails, or leaves for its retraining and comes back. What another package answers, and what waits for a retraining,
are the model's readings (assumptions 28, 78). -/
def Obligations.LinkAndHostAccessesTakeEffect : Prop :=
  (∀ (s : State) (v : Dword), ∃ u, exec (.pkgctlWrite v) s = .next u ∧ u = { s with link := u.link } ∧ u.link = { s.link with
      len := v.getLsbD 63, hbap := v.toNat / 2 ^ 10 % 16, pkgid := if s.link.len then s.link.pkgid else v.toNat % 1024 }) ∧
  (∀ (s : State) (t : Nat) (v : Dword), v.toNat % 64 ≤ 32 →
    (v.toNat % 64 ≠ 0 → ∀ p ∈ s.tenants, p.1 ≠ t → p.2.vf ≠ v.toNat % 64) →
    ∃ u, exec (.tlbindWrite t v) s = .next u ∧ TenantBecomes s u t { s.tenant t with vf := v.toNat % 64 }) ∧
  (∀ p ∈ plainRegs, ∀ (s : State) (t : Nat) (v : Dword), t < 32 →
    ∃ u, exec (.registerWrite 0 (p.1 + 4096 * t) 8 v) s = .next u ∧ TenantBecomes s u t (p.2.2 (v &&& p.2.1) (s.tenant t)) ∧
      hostRead u 0 (p.1 + 4096 * t) 8 = v &&& p.2.1) ∧
  (∀ (s : State) (t : Nat) (v : Dword), t < 32 → ∃ u, exec (.registerWrite 0 (0x03000000 + 4096 * t) 4 v) s = .next u ∧
    TenantBecomes s u t { s.tenant t with
      thbase := BitVec.ofNat 64 (((s.tenant t).thbase.toNat / 2 ^ 32 % 2 ^ 28) * 2 ^ 32 + v.toNat % 2 ^ 32 / 4 * 4) }) ∧
  (∀ (s : State) (off base : Nat) (b : List Byte), b ≠ [] → off + b.length ≤ 2 ^ 36 → base = s.link.hbap * 2 ^ 36 → homeReady s (base + off) = true →
    plainTarget s (span (base + off) b.length) →
    (∃ u, exec (.hostBar2Access off b.length (some b)) s = .next u ∧
      u = { s with mem := u.mem, badLines := u.badLines } ∧
      ∀ a, readByte u a = if base + off ≤ a ∧ a < base + off + b.length then b.getD (a - (base + off)) 0 else readByte s a) ∧
    exec (.hostBar2Access off b.length none) s = .next { s with hostOut := s.hostOut ++ [some (readMem s (base + off) b.length)] }) ∧
  (∀ (s : State) (a : RemoteAccess) (n : Nat), a.kind = .load n → Admitted s a n false → rangeBad s a.off.toNat n = false →
    ∃ u, exec (.remoteAccessArrival a) s = .next u ∧ u = { s with link := u.link } ∧ Replied s u a.pkg 0 (readMem s a.off.toNat n)) ∧
  (∀ (s : State) (a : RemoteAccess) (b : List Byte), a.kind = .store b → Admitted s a b.length true →
    plainTarget s (span a.off.toNat b.length) → ∃ u, exec (.remoteAccessArrival a) s = .next u ∧
      u = { s with mem := u.mem, badLines := u.badLines, link := u.link } ∧ Replied s u a.pkg 0 [] ∧
      ∀ j, readByte u j = if a.off.toNat ≤ j ∧ j < a.off.toNat + b.length then b.getD (j - a.off.toNat) 0 else readByte s j) ∧
  (∀ p ∈ atomForms, ∀ (s : State) (a : RemoteAccess) (code : BitVec 4) (w64 : Bool) (x y : Dword) (n old : Nat),
    a.kind = .atomic code w64 x y → code.toNat = p.1 → n = (if w64 then 8 else 4) → Admitted s a n true →
    plainTarget s (span a.off.toNat n) → old = leNat (readMem s a.off.toNat n) → ∃ u, exec (.remoteAccessArrival a) s = .next u ∧
      Replied s u a.pkg 0 (leBytes n old) ∧
      ∀ j, readByte u j = storedByte a.off.toNat n (p.2 (8 * n) old x.toNat y.toNat) j (readByte s j)) ∧
  (∀ (s : State) (a : RemoteAccess) (b : List Byte), a.kind = .store b → s.link.len = true → s.link.pkgid ≠ 1023 →
    admitted s.link a.key.toNat a.off.toNat b.length true = false → homeReady s a.off.toNat = true →
    ∃ u, exec (.remoteAccessArrival a) s = .next u ∧ u = { s with link := u.link } ∧ Replied s u a.pkg 1 []) ∧
  (∀ (s : State) (port : Nat), port < 36 →
    (∃ u, exec (.portFailure port) s = .next u ∧ u = { s with link := u.link } ∧
      (∀ j, u.link.portup.getLsbD j = (s.link.portup.getLsbD j && decide (j ≠ port))) ∧
      u.link = { s.link with portup := u.link.portup, retrain := s.link.retrain.filter (·.1 != port) }) ∧
    (s.link.portup.getLsbD port = true → (∀ p ∈ s.link.retrain, p.1 ≠ port) → ∃ u, exec (.linkRetrain port) s = .next u ∧ u = { s with link := u.link } ∧
      (∀ j, u.link.portup.getLsbD j = (s.link.portup.getLsbD j && decide (j ≠ port))) ∧
      u.link = { s.link with portup := u.link.portup, retrain := s.link.retrain ++ [(port, s.clk)] }) ∧
    ((∃ p ∈ s.link.retrain, p.1 = port) → ∃ u, exec (.linkRetrainEnd port) s = .next u ∧ u = { s with link := u.link } ∧
      (∀ j, u.link.portup.getLsbD j = (s.link.portup.getLsbD j || decide (j = port))) ∧
      u.link = { s.link with portup := u.link.portup, retrain := s.link.retrain.filter (·.1 != port) }))

/-- R466, R467, R40, R99, R102, R98, R101: errors and recovery. A correctable error is recorded; an uncorrectable one stays in its storage;
patrol and sweep report the lines that hold one. A silent front end resets its die and ends the launches there; a core with 16 errors is
quarantined, but not one that reached them before or during a reset of its die (R467); a die's reset ends. An error that is not detected
leaves the state, and the split of patrol and sweep, are the model's readings (assumption 42), as are the places and details of the
records (assumptions 24, 43). -/
def Obligations.ErrorsAreRecordedAndRecovered : Prop :=
  (∀ (s : State) (die : Nat), (s.die die).inReset = true → ∃ t, exec (.dieResetEnd die) s = .next t ∧
    t = { s with dies := t.dies, cores := t.cores } ∧
    t.die die = { s.die die with inReset := false } ∧ (∀ j, j ≠ die → t.die j = s.die j) ∧
    ∀ k, t.core k = (if k / 128 = die ∧ 16 ≤ (s.core k).errs ∧ k ∉ s.anvil.quar then { s.core k with errs := 0 } else s.core k)) ∧
  (∀ (s : State) (fw a : Nat), lookup s.anvil.heard fw = some a →
    (∃ t, exec (.firmwareCoreSignal fw) s = .next t ∧ AnvilBecomes s t { s.anvil with heard := t.anvil.heard } ∧
      (∀ k, lookup t.anvil.heard k = if k = fw then some s.clk else lookup s.anvil.heard k)) ∧
    (a + 4 * 1500000 ≤ s.clk → ∃ t, exec (.watchdogExpiry fw) s = .next t ∧ SameBytes s t ∧
      (∀ k, lookup t.anvil.heard k = if k = fw then some s.clk else lookup s.anvil.heard k) ∧
      (fw < 4 → (s.die fw).inReset = false → (t.die fw).inReset = true ∧ EndedThere s t (launchesOnDie s fw)) ∧
      (4 ≤ fw → t.launches = s.launches ∧ t.dies = s.dies))) ∧
  (∀ (s : State) (core : Nat), 16 ≤ (s.core core).errs → core ∉ s.anvil.quar → (s.die (core / 128)).inReset = false →
    ∃ t, exec (.coreQuarantine core) s = .next t ∧ t = { s with anvil := { s.anvil with quar := s.anvil.quar ++ [core] }, launches := t.launches } ∧
      EndedThere s t ((s.groups.filter (fun p => p.2.core == core)).map (·.2.slot))) ∧
  (∀ (s : State) (e : ErrorSite), detected e = false → exec (.errorDetect e) s = .next s) ∧
  (∀ (s : State) (e : ErrorSite), detected e = true → uncorrectable e = false → e.place ≠ 6 → ∃ t, exec (.errorDetect e) s = .next t ∧
    AnvilBecomes s t { s.anvil with errs := s.anvil.errs ++
      [⟨e.place, false, if e.place = 1 then 4 else e.die, e.tenant.getD 255, e.core, e.addr⟩] }) ∧
  (∀ (s : State) (e : ErrorSite), detected e = true → uncorrectable e = true →
    (e.place = 1 → ∃ t, exec (.errorDetect e) s = .next t ∧ t = { s with badLines := t.badLines } ∧
      ∀ l, l ∈ t.badLines ↔ l ∈ s.badLines ∨ l = e.addr / 64) ∧
    (e.place = 2 → ∃ t, exec (.errorDetect e) s = .next t ∧ t = { s with badLines := t.badLines, slices := t.slices } ∧
      (∀ l, l ∈ t.badLines ↔ l ∈ s.badLines ∨ l = e.addr / 64) ∧ e.addr / 64 ∈ (t.slice (homeSlice e.addr)).bad) ∧
    (e.place = 5 → ∀ co, lookup s.cohorts e.owner = some co → ∃ t, exec (.errorDetect e) s = .next t ∧ OnlyCohort s t e.owner
      (if e.part = 0 then { co with badS := co.badS ++ [e.addr] } else { co with badV := co.badV ++ [e.addr] })) ∧
    (e.place = 7 → ∀ g, lookup s.groups e.owner = some g → ∃ t, exec (.errorDetect e) s = .next t ∧ t = { s with groups := t.groups } ∧
      lookup t.groups e.owner = some { g with bad := g.bad ++ [(0, e.addr / 8 * 8)] } ∧
      ∀ k, k ≠ e.owner → lookup t.groups k = lookup s.groups k)) ∧
  (∀ (s : State) (ls : List Nat), ls = s.badLines.filter (fun l => decide (64 * l < 2 ^ 40) && !(s.slice (homeSlice (64 * l))).bad.contains l) →
    ∃ t, exec .patrolScrub s = .next t ∧ AnvilBecomes s t { s.anvil with
      errs := s.anvil.errs ++ ls.map (lineError 1 4), uncorr := s.anvil.uncorr + ls.length }) ∧
  (∀ (s : State) (ls : List Nat), ls = s.badLines.filter (fun l => (s.slice (homeSlice (64 * l))).bad.contains l) →
    ∃ t, exec .storageSweep s = .next t ∧ t = { s with slices := t.slices, anvil := t.anvil } ∧
      t.anvil = { s.anvil with
        errs := s.anvil.errs ++ ls.map (fun l => lineError 2 (sliceDie (homeSlice (64 * l))) l), uncorr := s.anvil.uncorr + ls.length } ∧
      ∀ k, t.slice k = { s.slice k with bad := [] }) ∧
  (∀ (s : State) (e : ErrorRec) (r : List ErrorRec) (pa : Nat), s.anvil.errs = e :: r →
    (s.anvil.errctl.getLsbD 0 = true → (s.anvil.errh + 1).toNat % errSize s.anvil ≠ s.anvil.errt.toNat % errSize s.anvil →
      pa = busPa (s.anvil.errbase.toNat / 32 % 2 ^ 47 * 32 + 32 * (s.anvil.errh.toNat % errSize s.anvil)) →
      (∀ a ∈ span pa 32, s.badLines.contains (a / 64) = false) → ∃ t, exec .errorRecordPost s = .next t ∧
        (∀ a, readByte t a = storedByte pa 32 (errNat e s.anvil.errseq) a (readByte s a)) ∧
        t.anvil = { s.anvil with errs := r, errh := s.anvil.errh + 1, errseq := s.anvil.errseq + 1 }) ∧
    ((s.anvil.errctl.getLsbD 0 = false ∨ (s.anvil.errh + 1).toNat % errSize s.anvil = s.anvil.errt.toNat % errSize s.anvil) →
      ∃ t, exec .errorRecordPost s = .next t ∧ AnvilBecomes s t { s.anvil with errs := r, errlost := s.anvil.errlost + 1 })) ∧
  (∀ (s : State) (v : Dword), s.anvil.errctl.getLsbD 0 = false → v.getLsbD 0 = true → ∃ t, exec (.errorRingEnable v) s = .next t ∧
    AnvilBecomes s t { s.anvil with errctl := v &&& 0x1F, errh := 0, errlost := 0 })

/-- R461 to R463, R465, R469, R7: a module reset and a loss of power leave every register at its reset value and no HBM byte; bring-up
verifies an image at each of its steps 2 to 4 and is ready after step 5; a report is asked for and written; the clock moves by one step;
the power is measured at each whole millisecond. That HBM reads 0 after a reset or a loss of power is the model's choice (assumptions 44,
1); the steps of bring-up and their failure codes, and the seed of the identity key, are its readings (assumptions 43, 8). -/
def Obligations.AnvilBringsUpAndReports : Prop :=
  (∀ s : State, (∃ t, exec .moduleReset s = .next t ∧ AfterReset s t true) ∧ ∃ t, exec .powerLoss s = .next t ∧ AfterReset s t false) ∧
  (∀ (s : State) (kind f : Nat) (b : List Byte), s.powered = true → s.anvil.fail = 0 → s.anvil.ready = false →
    (s.anvil.step + 1 ∉ [2, 3, 4, 5] → ∃ t, exec .bringupStep s = .next t ∧ AnvilBecomes s t { s.anvil with step := s.anvil.step + 1 }) ∧
    (s.anvil.step = 4 → ∃ t, exec .bringupStep s = .next t ∧ AnvilBecomes s t { s.anvil with step := 5, ready := true }) ∧
    (kind ∈ [1, 2, 3] → s.anvil.step = kind → b = (lookup s.anvil.flash kind).getD [] → f = imageFail s.anvil b kind →
      ∃ t, exec .bringupStep s = .next t ∧ t.mem = s.mem ∧ t.anvil.step = kind + 1 ∧ t.anvil.ready = false ∧
        (f ≠ 0 → AnvilBecomes s t { s.anvil with step := kind + 1, fail := f }) ∧
        (f = 0 → lookup t.anvil.measures kind = some (Config.shake256 (imageSigned b)) ∧
          lookup t.anvil.versions kind = some (imageNum b 2 2) ∧
          (∀ fw ∈ (if kind = 1 then [0, 1, 2, 3] else [kind + 2]), lookup t.anvil.heard fw = some s.clk) ∧
          (t.anvil.fail = 0 ∨ (kind ≠ 1 ∧ t.anvil.fail = 5))))) ∧
  (∀ (s : State) (v : Dword), v.toNat / 2 ^ 56 = 1 → s.anvil.st ≠ 1 →
    (s.anvil.ready = false → ∃ t, exec (.attest v) s = .next t ∧ AnvilBecomes s t { s.anvil with st := 3 }) ∧
    (s.anvil.ready = true → ∃ t, exec (.attest v) s = .next t ∧ AnvilBecomes s t { s.anvil with
      st := 1, dst := v.toNat / 64 % 2 ^ 46 * 64, asked := (List.range 4).map (fun i => get 0 s.anvil.nonce i) })) ∧
  (∀ (s : State), s.anvil.st = 1 → s.anvil.asked.length = 4 → (∀ d ∈ s.dies, d.2.inReset = false) → (∀ a ∈ span (busPa s.anvil.dst) 8192, s.badLines.contains (a / 64) = false) →
    ∃ t, exec .attestComplete s = .next t ∧ t.anvil = { s.anvil with st := 2 } ∧
      ∀ a, readByte t a = if busPa s.anvil.dst ≤ a ∧ a < busPa s.anvil.dst + 8192 then
        (reportHead s.anvil ++ (List.range 3309).map (Config.reportSig (identitySeed s.anvil) (reportHead s.anvil))).getD (a - busPa s.anvil.dst) 0
      else readByte s a) ∧
  (∀ (s : State), (∃ t, exec (.clockThrottle true) s = .next t ∧ AnvilBecomes s t { s.anvil with mhzDrop := s.anvil.mhzDrop - 1 }) ∧
    (s.anvil.mhzDrop < 8 → ∃ t, exec (.clockThrottle false) s = .next t ∧ AnvilBecomes s t { s.anvil with mhzDrop := s.anvil.mhzDrop + 1 })) ∧
  (∀ (s : State) (w : Word), s.clk ≠ 0 → s.clk % 1500000 = 0 →
    ∃ t, exec (.powerMeasurement w) s = .next t ∧ AnvilBecomes s t { s.anvil with pwr := w })

/-- R439 to R442, R446, R444, R449: a write of TRCTL that raises EN starts the ring anew; a sample writes one record of the next cohort; the
debugger's READ, WRITE, RESUME and HALT act on a halted group, a READ or WRITE of a register waiting for a result that is on its way to
it; a bad command fails with 3, and without the right nothing stays halted. That a sample is due where the time is a multiple of the
period is the model's reading (assumption 41), as are the codes of refused commands (assumption 40), a busy HALT that goes on (assumption
71) and the results that a READ waits for (assumption 76). -/
def Obligations.TraceAndDebugCommandsTakeEffect : Prop :=
  (∀ (s : State) (t : Nat) (v : Dword), (s.tenant t).trctl.getLsbD 0 = false → v.getLsbD 0 = true →
    ∃ u, exec (.traceEnable t v) s = .next u ∧ TenantBecomes s u t { s.tenant t with trctl := v &&& 0xFFFF00FF, trh := 0, trlost := 0 }) ∧
  (∀ (s : State) (core t p size base pa k : Nat) (T : Tenant) (co : Cohort) (g : Group) (l : Launch), s.tenants = [(t, T)] →
    T.trctl.getLsbD 0 = true → p = T.trctl.toNat / 2 ^ 16 % 2 ^ 16 * 64 → p ≠ 0 → s.clk % p = 0 → sampledNow s core t = false →
    nextSample s core t = some (k, co) →
    launchOf s co = some (g, l) → size = 2 ^ (T.trctl.toNat / 16 % 16 + 8) → base = T.trbase.toNat / 64 % 2 ^ 54 * 64 →
    (T.trh + 1).toNat % size ≠ T.trt.toNat % size → ringInWindow s t base (48 * size) = true →
    xlatRange s t (base + 48 * (T.trh.toNat % size)) 48 .write = .ok [(pa, 48)] → plainTarget s (span pa 48) →
    ∃ u, exec (.traceSample core) s = .next u ∧ (u.tenant t).trh = T.trh + 1 ∧ get (31, 0) (u.core core).sampled t = (coreSlot co, s.clk + 1) ∧
      (u.die (g.core / 128)).traceSeq = (s.die (g.core / 128)).traceSeq + 1 ∧
      ∀ a, readByte u a = if pa ≤ a ∧ a < pa + 48 then
        (traceBytes 1 (whoIs s co co.spc) (s.die (g.core / 128)).traceSeq
          ((if co.park.isSome then 1 else 0) + (if co.handler then 2 else 0))).getD (a - pa) 0 else readByte s a) ∧
  (∀ (s : State) (t : Nat) (v : Dword) (c : DbgCmd) (h : HaltSlot) (g : Group) (l : Launch), Commands s t v c 1 → HaltedAt s t c h g l →
    (∀ j co, NamedCohort s c h j co →
      (c.space < 3 → c.index < 22 → resultComes s c j co = true → ∃ u, exec (.dbgcmdRead t v) s = .next u ∧
        TenantBecomes s u t { s.tenant t with dbgst := 1, dbgfail := 0, dbgWait := some v }) ∧
      (c.space = 0 → c.index < 64 → resultComes s c j co = false → ∃ u, exec (.dbgcmdRead t v) s = .next u ∧
        TenantBecomes s u t (cmdDone { s.tenant t with dbgdata := (co.reg c.index).setWidth 64 })) ∧
      (c.space = 1 → c.index < co.nv → resultComes s c j co = false → ∃ u, exec (.dbgcmdRead t v) s = .next u ∧
        TenantBecomes s u t (cmdDone { s.tenant t with dbgdata := (co.vreg c.index c.lane).setWidth 64 }))) ∧
    (3 ≤ c.space → c.index + 8 ≤ (l.node g.node).alloc (c.space - 3) → ∃ u, exec (.dbgcmdRead t v) s = .next u ∧
      TenantBecomes s u t (cmdDone { s.tenant t with dbgdata := BitVec.ofNat 64 (leNat (bytesAt (g.space (c.space - 3)) c.index 8)) }))) ∧
  (∀ (s : State) (t : Nat) (v : Dword) (c : DbgCmd) (h : HaltSlot) (g : Group) (l : Launch), Commands s t v c 2 → HaltedAt s t c h g l →
    (∀ j co, NamedCohort s c h j co → c.space = 0 → c.index < 64 → resultComes s c j co = false → ∃ u co', exec (.dbgcmdWrite t v) s = .next u ∧
      lookup u.cohorts j = some co' ∧ co' = { co with s := co'.s, badS := co'.badS } ∧
      (∀ n, co'.reg n = if n = c.index then (s.tenant t).dbgdata.setWidth 32 else co.reg n) ∧
      (∀ i, i ≠ j → lookup u.cohorts i = lookup s.cohorts i) ∧ u.tenant t = cmdDone (s.tenant t) ∧
      u = { s with cohorts := u.cohorts, tenants := u.tenants }) ∧
    (c.space = 3 → c.index + 8 ≤ (l.node g.node).spsz → ∃ u g', exec (.dbgcmdWrite t v) s = .next u ∧
      lookup u.groups h.grp = some g' ∧ g' = { g with sp := g'.sp, bad := g'.bad } ∧
      StoredAt g.sp g'.sp c.index 8 (s.tenant t).dbgdata.toNat ∧ u.tenant t = cmdDone (s.tenant t) ∧
      u = { s with groups := u.groups, tenants := u.tenants })) ∧
  (∀ (s : State) (t : Nat) (v : Dword) (c : DbgCmd) (h : HaltSlot), Commands s t v c 3 → lookup (s.tenant t).halts c.hslot = some h →
    rising s.cohorts = true → (∀ g, lookup s.groups h.grp = some g → g.save = false) →
    ∃ u, exec (.dbgcmdResume t v) s = .next u ∧ SameBytes s u ∧
      u.tenant t = cmdDone { s.tenant t with halts := erase (s.tenant t).halts c.hslot } ∧
      (∀ g, lookup s.groups h.grp = some g → lookup u.groups h.grp = some { g with halt := none }) ∧
      ∀ j co, lookup s.cohorts j = some co → lookup u.cohorts j = some (if co.grp = h.grp then { co with halted := false } else co)) ∧
  (∀ (s : State) (t : Nat) (v : Dword) (c : DbgCmd), Commands s t v c 4 → ∃ u, exec (.dbgcmdHalt t v) s = .next u ∧
    TenantBecomes s u t { s.tenant t with dbgst := 1, dbgfail := 0, haltCmd := some c.lslot }) ∧
  (∀ (s : State) (t : Nat) (v : Dword), (s.tenant t).right = true → ((dbgCmdOf v).bad = true ∨ (s.tenant t).dbgst = 1) →
    ∃ u, exec (.dbgcmdBadCommand t v) s = .next u ∧ TenantBecomes s u t { s.tenant t with dbgst := 3, dbgfail := 3 }) ∧
  (∀ (s : State) (t : Nat), ∃ u, exec (.dbgrClear t) s = .next u ∧
    ((∀ g ∈ s.groups, g.2.save = false) → SameBytes s u) ∧ (u.tenant t).right = false ∧
    (u.tenant t).haltCmd = none ∧ (u.tenant t).halts = [] ∧
    ((s.tenant t).dbgst = 1 → (u.tenant t).dbgst = 3 ∧ (u.tenant t).dbgfail = 1))

/-- R218 to R221, R224 to R229: the registers of a queue and its fetch. A doorbell within the ring moves TAIL and one beyond it stops the
queue; QCTL enables, disables and restarts; QTOK and QTOKS clear and set tokens; QIRQC arms an interrupt, which is sent where its
threshold is met. A good copy of a packet enters the window; a bad one is read again, and stops the queue when it stays bad. What a refused
enable leaves, and the last SIGNAL's number after an enable or a disable, are the model's readings (assumption 35). -/
def Obligations.QueueRegistersAndFetchTakeEffect : Prop :=
  (∀ (s : State) (q : Nat) (v : Dword), queueReached s q = false → ∀ i ∈ [Instr.doorbell q v, .queueEnable q v, .queueDisable q v,
    .queueRestart q v, .qtokClear q v, .qtoksSet q v, .qirqcArm q v], exec i s = .next s) ∧
  (∀ (s : State) (q : Nat) (v : Dword) (Q : Queue), Q = s.queue q → queueReached s q = true →
    (Q.en = false → exec (.doorbell q v) s = .next s) ∧
    (Q.en = true → (BitVec.ofNat 32 v.toNat - Q.head).toNat ≤ 2 ^ (Q.sz + 4) → ∃ t, exec (.doorbell q v) s = .next t ∧
      QueueBecomes s t q { Q with tail := BitVec.ofNat 32 v.toNat }) ∧
    (Q.en = true → 2 ^ (Q.sz + 4) < (BitVec.ofNat 32 v.toNat - Q.head).toNat → (∀ p ∈ Q.window, p.id ≠ 0) →
      ∃ t, exec (.doorbell q v) s = .next t ∧ t.queue q = { Q with run := false, code := 2, cause := 0, pkt := Q.head, tries := 0 } ∧
        ∀ k, k ≠ q → t.queue k = s.queue k)) ∧
  (∀ (s : State) (q : Nat) (v : Dword) (Q : Queue), Q = s.queue q → queueReached s q = true → Q.en = false → v.getLsbD 0 = true →
    (v.toNat / 2 ^ 8 % 16 ≤ 12 → (s.queues.filter (fun p => p.2.en)).length < 1024 → quiet s q → ∃ t, exec (.queueEnable q v) s = .next t ∧
      QueueBecomes s t q { Q with
        fvec := BitVec.ofNat 12 (v.toNat / 2 ^ 16), sz := v.toNat / 2 ^ 8 % 16, run := true, en := true, head := 0, tail := 0, tok := 0,
        tl := 0, cause := 0, code := 0, pkt := 0, again := [], tries := 0, signal := 0xFFFFFFFF, late := [] }) ∧
    (12 < v.toNat / 2 ^ 8 % 16 ∨ 1024 ≤ (s.queues.filter (fun p => p.2.en)).length → ∃ t, exec (.queueEnable q v) s = .next t ∧
      QueueBecomes s t q { Q with
        fvec := BitVec.ofNat 12 (v.toNat / 2 ^ 16), sz := v.toNat / 2 ^ 8 % 16, run := false, code := 4, cause := 0, pkt := 0 })) ∧
  (∀ (s : State) (q : Nat) (v : Dword) (Q : Queue), Q = s.queue q → queueReached s q = true → Q.en = true →
    (v.getLsbD 0 = false → quiet s q → ∃ t, exec (.queueDisable q v) s = .next t ∧ QueueBecomes s t q { Q with
      fvec := BitVec.ofNat 12 (v.toNat / 2 ^ 16), run := v.getLsbD 1, en := false, again := [], tries := 0, signal := 0xFFFFFFFF,
      window := Q.window.filter (fun p => p.state != .waiting) }) ∧
    (v.getLsbD 0 = true → v.getLsbD 1 = true → Q.run = false → ∃ t, exec (.queueRestart q v) s = .next t ∧ QueueBecomes s t q { Q with
      fvec := BitVec.ofNat 12 (v.toNat / 2 ^ 16), run := true, cause := 0, code := 0, pkt := 0, tries := 0 })) ∧
  (∀ (s : State) (q : Nat) (v : Dword) (Q : Queue), Q = s.queue q → queueReached s q = true →
    (startedNow s = [] → ∃ t, exec (.qtokClear q v) s = .next t ∧ QueueBecomes (hostWrote s) t q { Q with tok := Q.tok &&& ~~~v }) ∧
    (startedNow s = [] → ∃ t, exec (.qtoksSet q v) s = .next t ∧ QueueBecomes (hostWrote s) t q { Q with tok := Q.tok ||| v }) ∧
    (startedNow s ≠ [] → (∃ t, exec (.qtokClear q v) s = .next t ∧ QueueBecomes s t q { Q with late := Q.late ++ [(false, v)] }) ∧
      ∃ t, exec (.qtoksSet q v) s = .next t ∧ QueueBecomes s t q { Q with late := Q.late ++ [(true, v)] }) ∧
    (v.getLsbD 0 = false ∨ ((if Q.en then Q.tl else 0) - Q.irqt).toInt < 0 → ∃ t, exec (.qirqcArm q v) s = .next t ∧
      QueueBecomes s t q { Q with vec := BitVec.ofNat 12 (v.toNat / 2 ^ 16), arm := v.getLsbD 0 }) ∧
    (∀ vec, v.getLsbD 0 = true → 0 ≤ ((if Q.en then Q.tl else 0) - Q.irqt).toInt → vec = v.toNat / 2 ^ 16 % 2 ^ 12 →
      vec < (if queueFn s q = 0 then 2048 else 256) → vecMasked s (queueFn s q) vec = false → ∃ t, exec (.qirqcArm q v) s = .next t ∧
      t.queue q = { Q with vec := BitVec.ofNat 12 vec, arm := false } ∧ t.msgs = s.msgs ++ [(queueFn s q, vec)])) ∧
  (∀ (s r : State) (q n va : Nat) (b : List Byte) (Q : Queue) (i : Instr), Q = s.queue q → frontHeld s q = false → Q.next? = some n →
    va = Q.qbase.toNat + 128 * (n % 2 ^ (Q.sz + 4)) → frontWaits s (queueTenant q) va 128 .read = false →
    frontRead s (queueTenant q) va 128 = .ok b → r = frontAsk s (queueTenant q) va 128 →
    ((i = .packetFetch q ∧ Q.tries = 0) ∨ (i = .packetRefetch q ∧ Q.tries ≠ 0 ∧ Q.triedAt + 64 ≤ s.clk)) →
    (∀ p : WinPkt, p = { id := s.fresh, num := n, bytes := b } → copyGood b n = true → packetBad p = false →
      ∃ t w, exec i s = .next t ∧ t = { r with queues := t.queues, fresh := s.fresh + 1 } ∧ (∀ k, k ≠ q → t.queue k = s.queue k) ∧
        (∀ x, x ∈ w ↔ x = p ∨ x ∈ Q.window) ∧ t.queue q = { Q with
          window := w, tries := 0, head := if n ∈ Q.again then Q.head else Q.head + 1, again := Q.again.filter (· != n) }) ∧
    (copyGood b n = false → Q.tries < 4 → ∃ t, exec i s = .next t ∧ QueueBecomes r t q { Q with tries := Q.tries + 1, triedAt := s.clk }) ∧
    (copyGood b n = false → 4 ≤ Q.tries → ∃ t, exec i s = .next t ∧ (t.queue q).run = false ∧ (t.queue q).code = 1 ∧
      (t.queue q).cause = 0x18 ∧ (t.queue q).pkt = BitVec.ofNat 32 n ∧ n ∈ (t.queue q).again ∧
      (t.queue q).head = if n ∈ Q.again then Q.head else Q.head + 1))

/-- R226 to R229, R233, R236, R238, R190, R231, R232, R234, R447, R448: packets. The first ready packet of a window starts, and CONS
consumes its tokens; NOP is done, a SIGNAL raises the timeline as it completes, WAIT waits for one, COPY copies, WITHDRAW leaves no withdrawn packet
or record, VACATE holds cores for its tenant and returns them, captures begin and are written, REDFLUSH waits for the slices that
hold entries; GRAPH creates its launch in the lowest free slot, or ends with its failure code; a packet whose effect is done
completes, before the host's writes of tokens and the starts of its time. The number of the last SIGNAL is the model's reading
(assumption 35); what a failed creation writes is another (assumption 37); what WITHDRAW
and VACATE take, and when a walk's reads leave, are too (assumptions 38, 81); when a NOP and a SIGNAL complete is its choice (assumption
71). -/
def Obligations.PacketsTakeEffect : Prop :=
  (∀ (s : State) (q n type : Nat) (Q : Queue) (pre post : List WinPkt) (p : WinPkt), Q = s.queue q → startTurn s q = true →
    Q.window = pre ++ p :: post → (∀ r ∈ pre, packetReady s q r = false) → packetReady s q p = true →
    p.num = n → p.type = type → (∀ r ∈ pre ++ post, r.id ≠ p.id) →
    ∃ s', starting s q n type = some (s', { p with state := .started }) ∧
      s' = { s with queues := s'.queues, starts := { at_ := s.clk, queues := startedNow s ++ [q], last := q } } ∧
      ∀ k, s'.queue k = { s.queue k with
        window := if k = q then pre ++ { p with state := .started } :: post else (s.queue k).window,
        tok := if p.cons = true ∧ k = q / 64 * 64 + p.wq then (s.queue k).tok &&& ~~~p.wmask else (s.queue k).tok }) ∧
  (∀ (s s' : State) (q n : Nat) (p : WinPkt),
    (starting s q n 0 = some (s', p) → ∃ t, exec (.nopPacket q n) s = .next t ∧ QueueBecomes s' t q (standing (s'.queue q) p .done)) ∧
    (starting s q n 3 = some (s', p) → ∃ t, exec (.signal q n) s = .next t ∧ QueueBecomes s' t q (standing (s'.queue q) p .done)) ∧
    (starting s q n 4 = some (s', p) →
      (waitMet s' q p = false → ∃ t, exec (.wait q n) s = .next t ∧ QueueBecomes s' t q (standing (s'.queue q) p (.waits s'.clk))) ∧
      (waitMet s' q p = true → (s'.tenant (queueTenant q)).trctl.getLsbD 0 = false → ∃ t, exec (.wait q n) s = .next t ∧
        QueueBecomes s' t q (standing (s'.queue q) p .done)))) ∧
  (∀ (s s' r : State) (q n pa : Nat) (p : WinPkt) (b : List Byte), starting s q n 2 = some (s', p) →
    frontRead s' (queueTenant q) (p.num' 32 8) (p.num' 48 4 + 1) = .ok b → plainAt s' (queueTenant q) (p.num' 40 8) b.length pa →
    r = frontWalks (frontAsk s' (queueTenant q) (p.num' 32 8) (p.num' 48 4 + 1)) (queueTenant q) (p.num' 40 8) b.length →
    ∃ t, exec (.copy q n) s = .next t ∧ t = { r with mem := t.mem, badLines := t.badLines, queues := t.queues } ∧
      BytesPut s' t pa b ∧ t.queue q = standing (s'.queue q) p .done ∧ ∀ k, k ≠ q → t.queue k = s'.queue k) ∧
  (∀ (s s' : State) (q n : Nat) (p : WinPkt) (w : Word), starting s q n 5 = some (s', p) → p.num' 40 8 = 0 → rising s'.queues = true →
    w = BitVec.ofNat 32 (p.num' 32 4) → (∀ x ∈ (s'.queue q).window, x.id = p.id → x.state = .started) → p ∈ (s'.queue q).window →
    ∃ t, exec (.withdraw q n) s = .next t ∧ (∃ x ∈ (t.queue q).window, x.id = p.id ∧ x.state = .done) ∧
      (∀ k, queueTenant k = queueTenant q → ∀ x ∈ (t.queue k).window, x.state = .waiting → x.tag ≠ w) ∧
      (∀ d, ∀ pg ∈ (t.die d).pages, ∀ r ∈ pg.recs, recWithdrawn s' (queueTenant q) w r.2 = false) ∧
      ∀ k l, lookup s'.launches k = some l → ∃ l', lookup t.launches k = some l' ∧
        l' = { l with wdr := l'.wdr, arenaUsed := l'.arenaUsed }) ∧
  (∀ (s s' : State) (q n : Nat) (p : WinPkt), starting s q n 6 = some (s', p) → q < 64 →
    (p.num' 33 1 = 0 → ∃ t cores, exec (.vacate q n) s = .next t ∧ t.queue q = standing (s'.queue q) p (.vacating cores) ∧
      (∀ c, (t.core c).vacated = if c ∈ cores then some (p.num' 36 1) else (s'.core c).vacated) ∧
      (∀ c ∈ cores, (s'.core c).vacated = none ∧ c / 128 < 4 ∧ bitOf (p.num' 32 1) (c / 128) = true) ∧
      (∀ d < 4, bitOf (p.num' 32 1) d = true → (cores.filter (fun c => c / 128 == d)).length =
        min (p.num' 34 2) ((List.range 128).filter (fun i => (s'.core (d * 128 + i)).vacated.isNone)).length) ∧
      ∀ j g, lookup s'.groups j = some g → g.core ∈ cores → (∀ l, lookup s'.launches g.slot = some l → l.t ≠ p.num' 36 1) →
        ∃ g', lookup t.groups j = some g' ∧ g'.save = true) ∧
    (p.num' 33 1 = 1 → ∃ t, exec (.vacateReturn q n) s = .next t ∧ t = { s' with cores := t.cores, queues := t.queues } ∧
      t.queue q = standing (s'.queue q) p .done ∧
      ∀ c, t.core c = { s'.core c with vacated := if bitOf (p.num' 32 1) (c / 128) then none else (s'.core c).vacated })) ∧
  (∀ (s s' r : State) (q n : Nat) (p : WinPkt) (b : List Byte) (caps : List Capture), starting s q n 7 = some (s', p) →
    frontRead s' (queueTenant q) (p.num' 40 8) 16 = .ok b → caps = (s'.tenant (queueTenant q)).caps →
    (∀ i < 8, leNat ((b.drop (2 * i)).take 2) < 16) → caps.length < 4 → (∀ c ∈ caps, c.cid ≠ p.num' 32 2) →
    r = frontAsk s' (queueTenant q) (p.num' 40 8) 16 →
    ∃ t, exec (.capstart q n) s = .next t ∧ t = { r with tenants := t.tenants, queues := t.queues } ∧
      t.queue q = standing (s'.queue q) p .done ∧ t.tenant (queueTenant q) = { s'.tenant (queueTenant q) with caps := caps ++
        [{ cid := p.num' 32 2, sel := (List.range 8).map (fun i => leNat ((b.drop (2 * i)).take 2)),
           out := BitVec.ofNat 64 (p.num' 48 8), at_ := s'.clk, counts := List.replicate 8 0 }] }) ∧
  (∀ (s s' : State) (q n pa : Nat) (p : WinPkt) (c : Capture) (T : Tenant), starting s q n 8 = some (s', p) →
    T = s'.tenant (queueTenant q) → T.caps.find? (fun d => d.cid == p.num' 32 2) = some c →
    plainAt s' (queueTenant q) c.out.toNat 80 pa → ∃ t, exec (.capstop q n) s = .next t ∧
      (∀ a, readByte t a = storedByte pa 80 (c.cid % 2 ^ 16 + (if c.int then 2 ^ 16 else 0) + (s'.clk - c.at_) % 2 ^ 64 * 2 ^ 64 +
        ((List.range 8).map (fun i => c.counts.getD i 0 % 2 ^ 64 * 2 ^ (128 + 64 * i))).sum) a (readByte s' a)) ∧
      t.queue q = standing (s'.queue q) p .done ∧
      t.tenant (queueTenant q) = { T with caps := T.caps.filter (fun d => d.cid != c.cid) }) ∧
  (∀ (s s' : State) (q n slot : Nat) (p : WinPkt), starting s q n 9 = some (s', p) → slot = p.num' 32 1 →
    (launchAt s' slot (BitVec.ofNat 16 (p.num' 34 2)) = none → ∃ t, exec (.redflush q n) s = .next t ∧
      QueueBecomes s' t q (standing (s'.queue q) p .done)) ∧
    (∀ l, launchAt s' slot (BitVec.ofNat 16 (p.num' 34 2)) = some l → l.t = queueTenant q → l.ending = none →
      ∃ t ss, exec (.redflush q n) s = .next t ∧ QueueBecomes s' t q (standing (s'.queue q) p (.flushing slot ss)) ∧
        ((s'.tenant l.t).area = none → ∀ k, k ∈ ss ↔ ∃ x ∈ s'.slices, x.1 = k ∧ ∃ e ∈ x.2.redo, e.slot = slot))) ∧
  (∀ (s s' : State) (q n : Nat) (p : WinPkt) (ps : List (Nat × Nat)), starting s q n 1 = some (s', p) →
    ((p.num' 56 8 = 0 ∧ ps = []) ∨ (p.num' 56 8 ≠ 0 ∧ xlatRange s' (queueTenant q) (p.num' 56 8) 32 .write = .ok ps)) →
    (∀ x ∈ ps, cutOff s' x.1 = false) → ∃ t, exec (.graph q n) s = .next t ∧
      QueueBecomes (if p.num' 56 8 = 0 then s' else frontWalks s' (queueTenant q) (p.num' 56 8) 32) t q { s'.queue q with
      window := (s'.queue q).window.map (fun x => if x.id = p.id then { x with crecAt := ps } else x) }) ∧
  (∀ (s : State) (q n slot : Nat) (p : WinPkt) (Q : Queue) (ps : List (Nat × Nat)), Q = s.queue q → p ∈ Q.window → p.num = n → p.type = 1 → p.state = .started →
    (∀ x ∈ Q.window, x.num = n ∨ x.id = p.id → x = p) → slot < 64 → lookup s.launches slot = none →
    (∀ k < slot, lookup s.launches k ≠ none) → (s.tenant (queueTenant q)).txctl.getLsbD 0 = true → frontHeld s q = false →
    (∀ a ∈ graphSpans s (queueTenant q) p, frontWaits s (queueTenant q) a.1 a.2 .read = false) →
    crecPieces s (queueTenant q) p = .ok ps →
    (∀ code, checkGraph s (queueTenant q) p = .error ⟨code, none⟩ → code < 256 → ∃ t, exec (.graphCreate q n) s = .next t ∧
      t.queue q = standing Q p .done ∧ t.launches = s.launches ∧ CrecWritten s t (queueTenant q) (p.num' 56 8) (crecNat 2 code 0 3 0 0)) ∧
    (∀ l es, checkGraph s (queueTenant q) p = .ok (l, es) → ∃ t l', exec (.graphCreate q n) s = .next t ∧
      t.queue q = standing Q p (.launched slot) ∧
      l' = { l with packet := some (q, p.id), crec := BitVec.ofNat 64 (p.num' 56 8), tag := p.tag } ∧
      (∀ k, lookup t.launches k = if k = slot then some l' else lookup s.launches k) ∧
      (ps = [] → SameBytes s t) ∧ (∀ pa, ps = [(pa, 32)] → plainTarget s (span pa 32) →
        ∀ a, readByte t a = storedByte pa 32 (crecNat 1 0 0 0 slot (s.gen slot).toNat) a (readByte s a)) ∧
      (es = [] → t.dies = s.dies) ∧
      ∀ node b, es = [(node, b)] → ∃ (r : Rec) (d : Nat), r = {
          id := s.fresh, spkg := s.link.pkgid, sslot := slot, sgen := s.gen slot, slot := slot,
          gen := s.gen slot, node := node, scope := 5, tag := p.tag, payload := b, origin := 1 } ∧ d = sliceDie (recSlice (l.node node) r) ∧
        t.die d = { s.die d with transit := (s.die d).transit ++ [r] } ∧ ∀ k, k ≠ d → t.die k = s.die k)) ∧
  (∀ (s : State) (q n : Nat) (p : WinPkt) (v : Dword), p ∈ (s.queue q).window → p.num = n → p.state = .done → startedNow s = [] →
    s.starts.host ≠ some s.clk → (∀ x ∈ (s.queue q).window, x.num = n → x = p) → v = BitVec.ofNat 64 (p.num' 32 8) →
    ((p.type ≠ 3 ∨ (v - (s.queue q).tl).toInt ≤ 0) → ∃ t, exec (.packetComplete q n) s = .next t ∧
      QueueBecomes s t q (packetOut (s.queue q) p)) ∧
    (p.type = 3 → 0 < (v - (s.queue q).tl).toInt → quiet s q → ∃ t, exec (.packetComplete q n) s = .next t ∧
      QueueBecomes s t q { packetOut (s.queue q) p with tl := v, signal := BitVec.ofNat 32 p.num }))

/-- R203, R202, R207, R208, R209, R172, R176, R177, R188, R204, R459: records on their way to cores. A record in transit enters its queue,
where its limit admits it; a buffer whose timer has run out forms; the first candidate that can be placed starts a group with its
records; a parked spawner whose record has room goes on; a gang that has waited its time may launch with fewer groups, and later
closes cores; a page is spilled to the arena and read back; a record sent to another package gives its credit back. That a record is on
its way with a kept place until it arrives, what is packed at the time of a timer, how free places are picked, what order waiting records
have, and which of equals comes first, are the model's readings and choices (assumptions 29, 34, 30, 79, 77). -/
def Obligations.RecordsReachTheirCores : Prop :=
  (∀ (s : State) (die k : Nat) (r : Rec) (l : Launch), (s.die die).transit[k]? = some r → (s.die die).inReset = false →
    waitsBehind s ((s.die die).transit.take k) r = false →
    (r.own = true ∨ r.origin = 1 ∨ refusal s r = 0) → lookup s.launches r.slot = some l → l.ending = none →
    admits s die l r = true →
    pageGiven (s.onDie die (fun D => { D with transit := D.transit.eraseIdx k })) die r.slot r.node = true → pagesApart s die →
    (∀ p ∈ (s.die die).pages, p.id ≠ s.fresh) → inOrder ((s.die die).queue r.slot r.node) (l.node r.node).pageRecs →
    (∀ b, bufOf l r = some b → (bufRecs s die b).length + 1 < (l.node r.node).packMax) → (∀ c ∈ (s.die die).cands, c.at_ ≠ s.clk) →
    ∃ t, exec (.recordArrival die k) s = .next t ∧ (t.die die).transit = (s.die die).transit.eraseIdx k ∧
      (t.die die).recs r.slot r.node = (s.die die).recs r.slot r.node ++ [{ r with at_ := s.clk, credit := false, hold := false, wait := 0 }] ∧
      (r.hold = true → ∀ co, lookup s.cohorts r.from_ = some co → lookup t.cohorts r.from_ = some { co with vout := co.vout - 1 }) ∧
      (∀ c, (r.hold = false ∨ c ≠ r.from_) → lookup t.cohorts c = lookup s.cohorts c) ∧
      (∀ sl nd, (sl ≠ r.slot ∨ nd ≠ r.node) → (t.die die).recs sl nd = (s.die die).recs sl nd) ∧ ∀ j, j ≠ die → t.die j = s.die j) ∧
  (∀ (s : State) (die k kind : Nat) (b : BufKey) (l : Launch) (r : Rec) (rest : List Rec) (ids : List Nat), kind ≤ 1 →
    (buffersOf s die)[k]? = some b → lookup s.launches b.1 = some l → bufRecs s die b = r :: rest → (l.node b.2.1).kind = kind →
    l.ending = none → r.at_ + (l.node b.2.1).tmr ≤ s.clk →
    ids = ((r :: rest).take (if kind = 0 then 32 else (l.node b.2.1).gmax)).map (·.id) →
    ∃ t, exec (if kind = 0 then .packTimerExpiry die k else .groupFormTimer die k) s = .next t ∧
      DieBecomes { s with fresh := s.fresh + 1 } t die { s.die die with
        pages := eachRec (s.die die).pages (fun r => if r.id ∈ ids then { r with cand := s.fresh } else r),
        cands := (s.die die).cands ++ [⟨s.fresh, b.1, b.2.1, b.2.2, s.clk⟩] }) ∧
  (∀ (s : State) (die core : Nat) (c : Cand) (l : Launch) (n : NodeCopy) (rs : List Rec) (pre post : List Choice),
    firstResume s die = none → (s.die die).inReset = false → (s.die die).launched ≠ some s.clk → choices s die = pre ++ .formed c :: post →
    (∀ x ∈ pre, placesOf s die x = none) → placesOf s die (.formed c) = some [core] → lookup s.launches c.slot = some l →
    n = l.node c.node → n.kind ≤ 1 → rs = choiceRecs s die (.formed c) → n.pipe = false → rs.length ≤ 32 →
    (∀ r ∈ rs, r.payload.length = n.rsize) →
    ∃ t g, exec (.launchCandidate die) s = .next t ∧ lookup t.groups s.fresh = some g ∧
      (∀ k, k ≠ s.fresh → lookup t.groups k = lookup s.groups k) ∧
      g.slot = c.slot ∧ g.node = c.node ∧ g.core = core ∧ g.size = 1 ∧ g.gang = 0 ∧ g.recs = rs.length ∧ g.nco = n.roles.length ∧
      (n.kind = 0 → g.sp = []) ∧
      (n.kind = 1 → ∀ i j r, rs[i]? = some r → j < n.rsize → get 0 g.sp (n.rwo * 64 + i * n.rsize + j) = r.payload.getD j 0) ∧
      (∀ i < n.roles.length, ∃ co, lookup t.cohorts (s.fresh + 1 + i) = some co ∧ Started n rs s.fresh i co) ∧
      (∀ k, (k ≤ s.fresh ∨ s.fresh + n.roles.length < k) → lookup t.cohorts k = lookup s.cohorts k) ∧
      (t.die die).cands = (s.die die).cands.filter (fun x => x.id != c.id) ∧ (t.die die).served = c.slot ∧
      (t.die die).launched = some s.clk ∧
      ∀ pg ∈ (t.die die).pages, ∀ q ∈ pg.recs, ∀ r ∈ rs, q.2.id ≠ r.id) ∧
  (∀ (s p : State) (die k j : Nat) (x : Ctx) (r : Rec), (s.die die).parked[k]? = some x.c → ctxOf s x.c = some x → x.co.outbox = [r] →
    destOf s r = .die j → x.l.ending = none → roomFor s r (.die j) ((s.die die).parked.take k) = true → x.co.pend = [] →
    x.g.halt = none → x.g.save = false →
    p = (if r.own = true ∨ refusal s r = 0 then (givePlace s j r.slot r.node (handedOver s j r.slot r.node)).getD s else s) →
    ∃ t, exec (.spawnerWake die k) s = .next t ∧ lookup t.cohorts x.c = some { x.co with
        outbox := [], park := none, parkAt := s.clk, vout := if r.hold then x.co.vout + 1 else x.co.vout } ∧
      (∀ i, i ≠ x.c → lookup t.cohorts i = lookup s.cohorts i) ∧ (t.die die).parked = (s.die die).parked.filter (· != x.c) ∧
      (t.die j).transit = (s.die j).transit ++ [r] ∧
      t = { s with dies := t.dies, cohorts := t.cohorts, launches := p.launches, fresh := p.fresh }) ∧
  (∀ (s : State) (die k : Nat) (r : Rec) (l : Launch) (n : NodeCopy), (gangRecs s die)[k]? = some r → lookup s.launches r.slot = some l →
    n = l.node r.node → r.at_ + n.gwait < s.clk →
    (∃ t, exec (.gangWaitExpiry die k) s = .next t ∧ DieBecomes s t die { s.die die with
      pages := eachRec (s.die die).pages (fun q => if q.id = r.id then { q with late := true } else q) }) ∧
    (k = 0 → r.at_ + n.gwait + 65536 < s.clk → (∀ c ∈ (s.die die).closures, c.nb ≠ recNb n r) →
      ∃ t cs, exec (.gangClosure die k) s = .next t ∧ t = { s with cores := t.cores, dies := t.dies } ∧
        t.die die = { s.die die with closures := (s.die die).closures ++ [⟨recNb n r, r.id, cs⟩] } ∧
        cs.length = min n.gf ((candidateCores die (some (recNb n r))).filter (fun c => !s.anvil.quar.contains c)).length ∧
        (∀ c ∈ cs, c ∈ candidateCores die (some (recNb n r)) ∧ c ∉ s.anvil.quar) ∧
        (∀ c ∈ cs, ∀ d ∈ candidateCores die (some (recNb n r)), d ∉ s.anvil.quar → d ∉ cs → freeRoom s d ≤ freeRoom s c) ∧
        ∀ c, t.core c = { s.core c with closed := if c ∈ cs then some r.id else (s.core c).closed })) ∧
  (∀ (s : State) (die : Nat), (s.die die).pagesUsed ≤ 3328 → ∃ t, exec (.recordPageSpill die) s = .next t ∧
    DieBecomes s t die { s.die die with spilling := false }) ∧
  (∀ (s : State) (die slot node : Nat) (l : Launch) (p : RecPage), 3584 < (s.die die).pagesUsed →
    (∀ q ∈ (s.die die).pages, q.slot = slot ∧ q.node = node) → pagesApart s die → lookup s.launches slot = some l → l.ending = none →
    (∃ a < l.oapg, a ∉ l.arenaUsed) → (fullPages s die (slot, node)).head? = some p →
    (∀ a < l.oapg, a ∉ l.arenaUsed → plainTarget s (span (arenaPa s l a) 4096)) →
    ∃ t a, exec (.recordPageSpill die) s = .next t ∧ a < l.oapg ∧ a ∉ l.arenaUsed ∧ BytesPut s t (arenaPa s l a) (pageBytes (l.node node) p) ∧
      lookup t.launches slot = some { l with arenaUsed := l.arenaUsed ++ [a] } ∧
      t.die die = { s.die die with spilling := true, pages := (s.die die).pages.map (fun x =>
        if x.id = p.id then { x with arena := some a } else x) }) ∧
  (∀ (s : State) (die a : Nat) (l : Launch) (p : RecPage), readBackPage s die = some p → p.arena = some a → lookup s.launches p.slot = some l →
    (s.die die).pagesUsed < 4096 → l.ending = none →
    (rangeBad s (arenaPa s l a) 4096 = true → ∃ t, exec (.recordPageReadback die) s = .next t ∧
      lookup t.launches p.slot = some { l with ending := some (2, 7), endAt := s.clk }) ∧
    (rangeBad s (arenaPa s l a) 4096 = false → asSpilled s l a p → (∀ x ∈ (s.die die).pages, x.recs ≠ []) →
      ∃ t, exec (.recordPageReadback die) s = .next t ∧
      (∀ b, (b < arenaPa s l a ∨ arenaPa s l a + 4096 ≤ b) → readByte t b = readByte s b) ∧
      ((∀ x ∈ s.slices, x.2.kept = []) → SameBytes s t) ∧
      lookup t.launches p.slot = some { l with arenaUsed := l.arenaUsed.filter (· != a) } ∧
      (t.die die).pages.map (fun x => (x.id, x.arena)) =
        (s.die die).pages.map (fun x => (x.id, if x.id = p.id then none else x.arena)))) ∧
  (∀ (s : State) (pkg k cause : Nat) (r : Rec), ((s.link.sent.filter (fun p => p.1 == pkg)).map (·.2))[k]? = some r →
    ∃ t, exec (.remoteCreditReturn pkg k cause) s = .next t ∧
      t.link = { s.link with
        credits := t.link.credits, replies := t.link.replies, out := t.link.out, returns := t.link.returns,
        sent := s.link.sent.filter (fun p => !(p.1 == pkg && p.2.id == r.id)) } ∧
      (∀ j, get 0 t.link.credits j = if j = pkg then get 0 s.link.credits j - 1 else get 0 s.link.credits j) ∧
      (cause = 0 → t = { s with link := t.link, cohorts := t.cohorts } ∧
        (∀ c, lookup t.cohorts c = if c = r.from_ ∧ r.hold = true
          then (lookup s.cohorts c).map (fun co => { co with vout := co.vout - 1 }) else lookup s.cohorts c) ∧ t.link.replies = s.link.replies ∧ t.link.out = s.link.out ∧
        t.link.returns = s.link.returns) ∧
      (cause ≠ 0 → r.origin ≠ 2 → ∀ l, launchAt s r.sslot r.sgen = some l → ∃ l', lookup t.launches r.sslot = some l' ∧
        l' = { l with bcnt := l.bcnt + 1, blost := l'.blost }))

/-- R193, R190, R235, R415, R206, R232, R130: how launches end. LDEST ends the launch that it names; a launch out of work completes; a
launch that cannot go on ends with F_DEAD; a launch that is ending leaves no group, no record and its slot free, its packet done, its
completion record written, where what it has sent is settled, with its counts, and its generation one higher. What counts as stuck, and
DISC of a resume record, are the model's readings (assumptions 31, 32). -/
def Obligations.LaunchesEnd : Prop :=
  (∀ (s : State) (fn slot : Nat) (v : Dword) (l : Launch), v.toNat = slot * 2 ^ 32 + (s.gen slot).toNat * 2 ^ 38 → slot < 64 →
    lookup s.launches slot = some l → l.ending = none → (fn = 0 ∨ boundTenant s fn = some l.t) →
    ∃ t, exec (.launchDestroy fn v) s = .next t ∧ LaunchBecomes s t slot { l with ending := some (1, 0), endAt := s.clk }) ∧
  (∀ (s : State) (fn slot : Nat) (v : Dword), slot < 64 → v.toNat / 2 ^ 32 % 64 = slot → v.toNat / 2 ^ 38 % 2 ^ 16 ≠ (s.gen slot).toNat →
    exec (.launchDestroy fn v) s = .next s) ∧
  (∀ (s : State) (slot : Nat) (l : Launch), lookup s.launches slot = some l → l.ending = none → l.pers = false →
    outOfWork s slot = true → ∃ t, exec (.launchComplete slot) s = .next t ∧ LaunchBecomes s t slot { l with ending := some (0, 0), endAt := s.clk }) ∧
  (∀ (s : State) (slot c : Nat) (l : Launch), lookup s.launches slot = some l → l.deadSince = some c → isDead s slot l = true →
    c + 65536 ≤ s.clk → ∃ t, exec (.fDead slot) s = .next t ∧ LaunchBecomes s t slot { l with ending := some (2, 0x11), endAt := s.clk }) ∧
  (∀ (s : State) (slot how code : Nat) (l : Launch) (i : Instr), lookup s.launches slot = some l → l.ending = some (how, code) →
    i = (if how = 2 then .launchFaultEnd slot else .launchComplete slot) →
    remoteOutstanding (drainTenant s l.t slot) l.t = false →
    ∃ t, exec i s = .next t ∧ lookup t.launches slot = none ∧ t.gen slot = s.gen slot + 1 ∧ (∀ p ∈ t.groups, p.2.slot ≠ slot) ∧
      (∀ d, ∀ p ∈ (t.die d).pages, p.slot ≠ slot) ∧ (∀ d, ∀ c ∈ (t.die d).cands, c.slot ≠ slot) ∧
      (∀ d, ∀ r ∈ (t.die d).resumes, r.slot ≠ slot) ∧
      (∀ g ∈ s.groups, g.2.slot = slot → ∀ c ∈ t.cohorts, c.2.grp ≠ g.1) ∧
      (∀ q id, l.packet = some (q, id) → ∀ x ∈ (t.queue q).window, x.id = id → x.state = .done) ∧
      (atRest s l.t slot → l.flushErr = 0 → l.crec ≠ 0 → code < 256 → how < 256 → slot < 256 →
        ∀ pa, plainAt s l.t l.crec.toNat 32 pa → ∀ a, readByte t a = storedByte pa 32
          (crecNat 2 0 code how slot (s.gen slot).toNat + discardCount s slot % 2 ^ 32 * 2 ^ 96 + l.bcnt.toNat % 2 ^ 32 * 2 ^ 128 +
            l.redlost % 2 ^ 32 * 2 ^ 160 + l.wdr % 2 ^ 32 * 2 ^ 192 + l.blost % 2 ^ 32 * 2 ^ 224) a (readByte s a)))

/-- R427, R428, R433 to R435, R189, R205, R422: saving, resuming and evicting. A group whose cohorts are held leaves its core, and its
resume record is queued; without the pages for it its launch ends with F_REC. The first resume record that can be placed is
restored: each cohort at its anchor, its live registers back and every other one zero. The youngest eligible group is evicted where
records wait for its core. That the values come back from a copy beside the save area, that what a save does not list reads zero, the
header of a resume record, and how gangs are evicted, are the model's readings and choices (assumptions 14, 33, 68, 70). -/
def Obligations.GroupsAreSavedAndResumed : Prop :=
  (∀ (s : State) (g : Nat) (gr : Group) (l : Launch), lookup s.groups g = some gr → lookup s.launches gr.slot = some l → l.ending = none →
    gr.gang = 0 → saveReady s g = true →
    (saveGroup s g 0 = none → ∃ t, exec (.groupSave g) s = .next t ∧
      LaunchBecomes s t gr.slot { l with ending := some (2, 0x10), endAt := s.clk }) ∧
    (∀ u v, saveGroup s g 0 = some (u, v) → ∃ t hdr, exec (.groupSave g) s = .next t ∧ lookup t.groups g = none ∧
      (∀ c ∈ t.cohorts, c.2.grp ≠ g) ∧ (t.die (gr.core / 128)).resumes = (s.die (gr.core / 128)).resumes ++
        [⟨gr.slot, gr.node, if (l.node gr.node).near then some (gr.core % 128 / 8) else none, s.clk, [v], hdr, gr.evict⟩] ∧
      hdr.res = true ∧ hdr.slot = gr.slot ∧ hdr.node = gr.node ∧ hdr.gen = s.gen gr.slot ∧ hdr.spkg = s.link.pkgid ∧
      v.grp.slot = gr.slot ∧ v.grp.node = gr.node ∧ v.grp.save = false ∧
      (∀ co, co ∈ v.cohorts → co.grp = g ∧ co.ended = false) ∧
      v.cohorts.length = (s.cohorts.filter (fun p => p.2.grp == g && !p.2.ended)).length)) ∧
  (∀ (s : State) (die k core : Nat) (r : Resume) (v : Saved), firstResume s die = some k → (s.die die).inReset = false →
    (s.die die).launched ≠ some s.clk → (s.die die).resumes[k]? = some r → r.groups = [v] → v.grp.slot = r.slot → v.grp.node = r.node → resumePlace s die r = some [core] →
    (∀ co ∈ v.cohorts, co.anchor.ix = 1023 ∨ co.anchor.entry.stub.getLsbD 0 = false) →
    ∃ t g, exec (.groupResume die k) s = .next t ∧ (t.die die).resumes = (s.die die).resumes.eraseIdx k ∧
      (t.die die).launched = some s.clk ∧
      lookup t.groups s.fresh = some g ∧ g = { v.grp with
        core := core, at_ := s.clk, evict := none, loader := { v.grp.loader with cyc0 := s.clk, instret := 0 },
        storer := { v.grp.storer with cyc0 := s.clk, instret := 0 } } ∧
      (∀ j, j ≠ s.fresh → lookup t.groups j = lookup s.groups j) ∧
      ∀ i co, v.cohorts[i]? = some co → ∃ co', lookup t.cohorts (s.fresh + 1 + i) = some co' ∧ co'.grp = s.fresh ∧ co'.ix = co.ix ∧
        co'.spc = (if co.anchor.ix = 1023 then co.anchor.spc else co.anchor.spc + 4) ∧ co'.mode = co.anchor.mode ∧
        co'.fpe = co.anchor.fpe ∧ co'.fpf = co.fpf ∧ co'.depth = co.anchor.depth ∧ co'.ids = co.anchor.ids ∧
        co'.retDepth = co.anchor.retDepth ∧ co'.ret = co.anchor.ret ∧ co'.lcom = co.lcom ∧ co'.lcpl = co.lcpl ∧ co'.park = none ∧
        (∀ n, co'.reg n = if n < 64 ∧ co.anchor.entry.slive.getLsbD n = true then co.reg n else 0) ∧
        ∀ n j, j < 32 → co'.vreg n j = if n < 256 ∧ co.anchor.entry.vlive.getLsbD n = true then co.vreg n j else 0) ∧
  (∀ (s : State) (die g : Nat) (gr : Group) (c : Choice), lookup s.groups g = some gr → waitingFor s die gr = some c →
    evictable s g = true → (∀ k, (s.die die).evictAt = some k → k + 4096 ≤ s.clk) →
    (∀ p ∈ s.groups, (waitingFor s die p.2).isSome = true → evictable s p.1 = true → p.2.at_ ≤ gr.at_) →
    ∃ t g', exec (.groupEviction die g) s = .next t ∧ lookup t.groups g = some g' ∧ g'.save = true ∧ g'.evict = some c.key ∧
      (t.die die).evictAt = some s.clk)

/-- R270 to R274, R144, R152: words written out from the encodings, one or more of each format, decode to the instructions that they
stand for. -/
def Obligations.WrittenOutWordsDecode : Prop :=
  decodeTableWord 32 0x02186280 = some (.add 3 3 5) ∧ decodeTableWord 32 0x0430DFFF = some (.addi 6 6 (-1)) ∧
  decodeTableWord 32 0x18500005 = some (.li 10 5) ∧ decodeTableWord 64 0x12345678_1A400000 = some (.lix 8 0x12345678) ∧
  decodeTableWord 32 0x00A00085 = some (.getr 20 1) ∧ decodeTableWord 32 0x6000000A = some (.br 10) ∧
  decodeTableWord 32 0x64000000 = some .ret ∧ decodeTableWord 32 0x00000001 = some .done ∧
  decodeTableWord 32 0xAA000000 = some .mfence ∧ decodeTableWord 32 0x0005850B = some (.tld 10 11) ∧
  decodeTableWord 32 0x0457130B = some (.tbarWait 6 14 5) ∧ decodeTableWord 16 0x0505 = some (.riscvInstruction (.imm .addi 10 10 1) true) ∧
  decodeTableWord 32 0x00A50513 = some (.riscvInstruction (.imm .addi 10 10 10) false) ∧
  decodeTableWord 96 0x0D802004_040300E8_00000000 = some (.vbool ⟨false, 0, 4, 1, 2, 3, 0, 0, 0, 0xE8, 0⟩)

/-- R270 to R279, R144, R152: decoding gives back what encoding wrote, with every operand at every value that the encoding admits, of
every instruction of the scalar and lane streams and of the loader and storer; each of them has an encoding. -/
def Obligations.DecodingGivesBackWhatEncodingWrote : Prop :=
  (∀ i : Instr, i.wellFormed = true → encodeScalar i ≠ [] → ∀ rest, decodeScalar (encodeScalar i ++ rest) = .ok (i, (encodeScalar i).length)) ∧
  (∀ i : Instr, i.wellFormed = true → (laneParts i).isSome = true → decodeLane (encodeLane i) = .ok i) ∧
  (∀ (i : Instr) (w : Word), i.wellFormed = true → encodeRv i = some (w, 4) → decodeRv w = .ok (i, 4)) ∧
  (∀ (i : Instr) (w : Word) (above : BitVec 16), i.wellFormed = true → encodeRv i = some (w, 2) →
    decodeRv (above ++ w.extractLsb' 0 16) = .ok (i, 2)) ∧
  (∀ i : Instr, i.wellFormed = true → isEvent i = false →
    encodeScalar i ≠ [] ∨ (laneParts i).isSome = true ∨ ∃ w n, encodeRv i = some (w, n) ∧ (n = 2 ∨ n = 4))

/-- R168, R169, R184, R185, R271, R273, R144, R63: a step runs what its agent's code decodes to: the words from SPC on, or the next word
of the block at the head of the lane queue, of a cohort whose turn it is on that stream, which then takes its scheduler's slot; the
bytes at the loader's or storer's pc; an event of the agenda takes place; an empty agenda lets a clk pass. That the agenda names who moves,
and when a clk passes, are the model's choices (assumptions 2, 3); how cached code words are looked up is its reading (assumption 6). -/
def Obligations.AStepRunsTheDecodedInstruction : Prop :=
  (∀ (s s0 s1 s2 : State) (r : List Move) (x : Ctx) (w : Word) (more : List Word) (i : Instr) (n : Nat), s.agenda = .scalar x.c :: r →
    s0 = { s with agenda := r, cur := .cohort x.c } → ctxOf s x.c = some x → x.runnable = true →
    moreWords x 1 s0 x.co.spc = (s1, .ok [w]) → moreWords x (scalarWords w - 1) s1 (x.co.spc + 4) = (s2, .ok more) →
    decodeScalar (w :: more) = .ok (i, n) →
    x.co.cont = false → streamTurn { s with agenda := r } x.c false = true →
    FetchedBy s0 s2 ∧ Issues s s2 r x.c false i) ∧
  (∀ (s : State) (core t va : Nat) (xl : Xlat), wordInMemory s core t va xl →
    (codeWord s core t va).2 = .ok (BitVec.ofNat 32 (leNat (readMem s xl.pa 4)))) ∧
  (∀ (s : State) (r : List Move) (x : Ctx) (b : LaneBlock) (q : List LaneBlock) (i : Instr), s.agenda = .lane x.c :: r →
    ctxOf s x.c = some x → x.laneRunnable = true → x.co.laneQ = b :: q → streamTurn { s with agenda := r } x.c true = true →
    (∀ s0 s1 w, s0 = { s with agenda := r, cur := .cohort x.c } → nextLaneWord s0 x b = (s1, w) → decodeLane w = .ok i →
      FetchedBy s0 s1 ∧ Issues s s1 r x.c true i)) ∧
  (∀ (s : State) (x : Ctx) (b : LaneBlock), b.va = none → nextLaneWord s x b = (s, b.words.getD b.next 0)) ∧
  (∀ (s : State) (x : Ctx) (b : LaneBlock) (va : Nat) (l : CodeLine), b.va = some va →
    cachedWord (s.core x.core) x.t ((va + 12 * b.next) % 2 ^ 64) = some l →
    nextLaneWord s x b = (s, BitVec.ofNat 96 (leNat l.bytes))) ∧
  (∀ (s : State) (r : List Move) (k : RvCtx) (i : Instr) (n : Nat), s.agenda = .rv k.gid k.st :: r → rvOf s k.gid k.st = some k →
    k.runnable = true → k.r.pc.toNat % 2 = 0 → decodeRv (BitVec.ofNat 32 (leNat (bytesAt k.r.imem k.r.pc.toNat 4))) = .ok (i, n) →
    k.r.pc.toNat + n ≤ 0x8000 → step s = exec i { s with agenda := r, cur := .rv k.gid k.st }) ∧
  (∀ (s : State) (r : List Move) (i : Instr), s.agenda = .event i :: r → mayOccur s i → step s = exec i { s with agenda := r, cur := .none }) ∧
  (∀ s : State, s.agenda = [] → s.powered = true → ∃ t, step s = .next t ∧ t.clk = s.clk + 1 ∧ SameBytes s t)

/-- R7, R461, R451, R463: after reset every register of the host reads 0 but PKGID, which is 1,023, and MHZ, which is 1,500; no launch,
group or cohort is resident, bring-up has not begun, and memory is in canonical form. That every byte reads 0 there is the model's
choice (assumption 1). -/
def Obligations.ResetHoldsTheSpecsValues : Prop :=
  (∀ off, hostRead State.reset 0 off 8 = if off = 0x05000000 then 1023 else if off = 0x060000B0 then 1500 else 0) ∧
  (∀ fn off size, fn ≠ 0 → hostRead State.reset fn off size = 0) ∧
  State.reset.launches = [] ∧ State.reset.groups = [] ∧ State.reset.cohorts = [] ∧ (∀ slot, State.reset.gen slot = 0) ∧
  State.reset.anvil.step = 0 ∧ State.reset.anvil.ready = false ∧ Memory.wf State.reset.mem = true ∧ ∀ a, readByte State.reset a = 0

/-- Every step of every agent keeps memory in its canonical form: addresses strictly rising, and no byte listed that an unlisted
address reads as. -/
def Obligations.EveryStepKeepsMemoryCanonical : Prop :=
  ∀ s t : State, Memory.wf s.mem = true → step s = .next t → Memory.wf t.mem = true
end

