-- ==== Sys2Proof/Laws/Dispatch.lean ====
section
/-! SUPPORT. Each instruction executes as its own meaning. -/

namespace Sys2Proof.Machine

variable (s : State)

@[simp] theorem exec_nop : exec (.nop) s = execNop s := rfl
@[simp] theorem exec_done : exec (.done) s = execDone s := rfl
@[simp] theorem exec_tret : exec (.tret) s = execTret s := rfl
@[simp] theorem exec_yield : exec (.yield) s = execYield s := rfl
@[simp] theorem exec_fence (scope kind : BitVec 6) : exec (.fence scope kind) s = execFence scope kind s := rfl
@[simp] theorem exec_getr (d : SReg) (ix : BitVec 6) : exec (.getr d ix) s = execGetr d ix s := rfl
@[simp] theorem exec_setr (a : SReg) (ix : BitVec 6) : exec (.setr a ix) s = execSetr a ix s := rfl
@[simp] theorem exec_lwait : exec (.lwait) s = execLwait s := rfl
@[simp] theorem exec_add (d a b : SReg) : exec (.add d a b) s = execAdd d a b s := rfl
@[simp] theorem exec_sub (d a b : SReg) : exec (.sub d a b) s = execSub d a b s := rfl
@[simp] theorem exec_mul (d a b : SReg) : exec (.mul d a b) s = execMul d a b s := rfl
@[simp] theorem exec_mulhI32 (d a b : SReg) : exec (.mulhI32 d a b) s = execMulhI32 d a b s := rfl
@[simp] theorem exec_mulhN32 (d a b : SReg) : exec (.mulhN32 d a b) s = execMulhN32 d a b s := rfl
@[simp] theorem exec_and (d a b : SReg) : exec (.and d a b) s = execAnd d a b s := rfl
@[simp] theorem exec_or (d a b : SReg) : exec (.or d a b) s = execOr d a b s := rfl
@[simp] theorem exec_xor (d a b : SReg) : exec (.xor d a b) s = execXor d a b s := rfl
@[simp] theorem exec_andn (d a b : SReg) : exec (.andn d a b) s = execAndn d a b s := rfl
@[simp] theorem exec_shl (d a b : SReg) : exec (.shl d a b) s = execShl d a b s := rfl
@[simp] theorem exec_shr (d a b : SReg) : exec (.shr d a b) s = execShr d a b s := rfl
@[simp] theorem exec_sra (d a b : SReg) : exec (.sra d a b) s = execSra d a b s := rfl
@[simp] theorem exec_minI32 (d a b : SReg) : exec (.minI32 d a b) s = execMinI32 d a b s := rfl
@[simp] theorem exec_minN32 (d a b : SReg) : exec (.minN32 d a b) s = execMinN32 d a b s := rfl
@[simp] theorem exec_maxI32 (d a b : SReg) : exec (.maxI32 d a b) s = execMaxI32 d a b s := rfl
@[simp] theorem exec_maxN32 (d a b : SReg) : exec (.maxN32 d a b) s = execMaxN32 d a b s := rfl
@[simp] theorem exec_sltI32 (d a b : SReg) : exec (.sltI32 d a b) s = execSltI32 d a b s := rfl
@[simp] theorem exec_sltN32 (d a b : SReg) : exec (.sltN32 d a b) s = execSltN32 d a b s := rfl
@[simp] theorem exec_seq (d a b : SReg) : exec (.seq d a b) s = execSeq d a b s := rfl
@[simp] theorem exec_sel (d a b : SReg) : exec (.sel d a b) s = execSel d a b s := rfl
@[simp] theorem exec_popc (d a : SReg) : exec (.popc d a) s = execPopc d a s := rfl
@[simp] theorem exec_clz (d a : SReg) : exec (.clz d a) s = execClz d a s := rfl
@[simp] theorem exec_ctz (d a : SReg) : exec (.ctz d a) s = execCtz d a s := rfl
@[simp] theorem exec_bfe (d a b : SReg) : exec (.bfe d a b) s = execBfe d a b s := rfl
@[simp] theorem exec_add64 (d a b : SReg) : exec (.add64 d a b) s = execAdd64 d a b s := rfl
@[simp] theorem exec_sub64 (d a b : SReg) : exec (.sub64 d a b) s = execSub64 d a b s := rfl
@[simp] theorem exec_addi (d a : SReg) (imm : BitVec 13) : exec (.addi d a imm) s = execAddi d a imm s := rfl
@[simp] theorem exec_andi (d a : SReg) (imm : BitVec 13) : exec (.andi d a imm) s = execAndi d a imm s := rfl
@[simp] theorem exec_ori (d a : SReg) (imm : BitVec 13) : exec (.ori d a imm) s = execOri d a imm s := rfl
@[simp] theorem exec_xori (d a : SReg) (imm : BitVec 13) : exec (.xori d a imm) s = execXori d a imm s := rfl
@[simp] theorem exec_shli (d a : SReg) (sh : BitVec 5) : exec (.shli d a sh) s = execShli d a sh s := rfl
@[simp] theorem exec_shri (d a : SReg) (sh : BitVec 5) : exec (.shri d a sh) s = execShri d a sh s := rfl
@[simp] theorem exec_srai (d a : SReg) (sh : BitVec 5) : exec (.srai d a sh) s = execSrai d a sh s := rfl
@[simp] theorem exec_slti (d a : SReg) (imm : BitVec 13) : exec (.slti d a imm) s = execSlti d a imm s := rfl
@[simp] theorem exec_seqi (d a : SReg) (imm : BitVec 13) : exec (.seqi d a imm) s = execSeqi d a imm s := rfl
@[simp] theorem exec_muli (d a : SReg) (imm : BitVec 13) : exec (.muli d a imm) s = execMuli d a imm s := rfl
@[simp] theorem exec_li (d : SReg) (imm : BitVec 13) : exec (.li d imm) s = execLi d imm s := rfl
@[simp] theorem exec_lix (d : SReg) (ext : Word) : exec (.lix d ext) s = execLix d ext s := rfl
@[simp] theorem exec_addix (d a : SReg) (ext : Word) : exec (.addix d a ext) s = execAddix d a ext s := rfl
@[simp] theorem exec_adda (d a : SReg) (imm : BitVec 13) : exec (.adda d a imm) s = execAdda d a imm s := rfl
@[simp] theorem exec_ldB32 (d a : SReg) (imm : BitVec 13) : exec (.ldB32 d a imm) s = execLdB32 d a imm s := rfl
@[simp] theorem exec_ldB64 (d a : SReg) (imm : BitVec 13) : exec (.ldB64 d a imm) s = execLdB64 d a imm s := rfl
@[simp] theorem exec_ldN8 (d a : SReg) (imm : BitVec 13) : exec (.ldN8 d a imm) s = execLdN8 d a imm s := rfl
@[simp] theorem exec_ldI8 (d a : SReg) (imm : BitVec 13) : exec (.ldI8 d a imm) s = execLdI8 d a imm s := rfl
@[simp] theorem exec_ldN16 (d a : SReg) (imm : BitVec 13) : exec (.ldN16 d a imm) s = execLdN16 d a imm s := rfl
@[simp] theorem exec_ldI16 (d a : SReg) (imm : BitVec 13) : exec (.ldI16 d a imm) s = execLdI16 d a imm s := rfl
@[simp] theorem exec_stB32 (d a : SReg) (imm : BitVec 13) : exec (.stB32 d a imm) s = execStB32 d a imm s := rfl
@[simp] theorem exec_stB64 (d a : SReg) (imm : BitVec 13) : exec (.stB64 d a imm) s = execStB64 d a imm s := rfl
@[simp] theorem exec_stB8 (d a : SReg) (imm : BitVec 13) : exec (.stB8 d a imm) s = execStB8 d a imm s := rfl
@[simp] theorem exec_stB16 (d a : SReg) (imm : BitVec 13) : exec (.stB16 d a imm) s = execStB16 d a imm s := rfl
@[simp] theorem exec_atom (d a b : SReg) (w64 : Bool) (code : BitVec 4) : exec (.atom d a b w64 code) s = execAtom d a b w64 code s := rfl
@[simp] theorem exec_ldsp (d a b : SReg) (minor : BitVec 7) : exec (.ldsp d a b minor) s = execLdsp d a b minor s := rfl
@[simp] theorem exec_stsp (d a b : SReg) (minor : BitVec 7) : exec (.stsp d a b minor) s = execStsp d a b minor s := rfl
@[simp] theorem exec_ldo (d a : SReg) (scope : BitVec 3) (w64 : Bool) (kind : BitVec 2) : exec (.ldo d a scope w64 kind) s = execLdo d a scope w64 kind s := rfl
@[simp] theorem exec_sto (d a : SReg) (scope : BitVec 3) (w64 : Bool) (kind : BitVec 2) : exec (.sto d a scope w64 kind) s = execSto d a scope w64 kind s := rfl
@[simp] theorem exec_br (off : BitVec 25) : exec (.br off) s = execBr off s := rfl
@[simp] theorem exec_call (off : BitVec 25) : exec (.call off) s = execCall off s := rfl
@[simp] theorem exec_ret : exec (.ret) s = execRet s := rfl
@[simp] theorem exec_jr (a : SReg) : exec (.jr a) s = execJr a s := rfl
@[simp] theorem exec_beq (a b : SReg) (off : BitVec 13) : exec (.beq a b off) s = execBeq a b off s := rfl
@[simp] theorem exec_bne (a b : SReg) (off : BitVec 13) : exec (.bne a b off) s = execBne a b off s := rfl
@[simp] theorem exec_bltI32 (a b : SReg) (off : BitVec 13) : exec (.bltI32 a b off) s = execBltI32 a b off s := rfl
@[simp] theorem exec_bgeI32 (a b : SReg) (off : BitVec 13) : exec (.bgeI32 a b off) s = execBgeI32 a b off s := rfl
@[simp] theorem exec_bltN32 (a b : SReg) (off : BitVec 13) : exec (.bltN32 a b off) s = execBltN32 a b off s := rfl
@[simp] theorem exec_bgeN32 (a b : SReg) (off : BitVec 13) : exec (.bgeN32 a b off) s = execBgeN32 a b off s := rfl
@[simp] theorem exec_bz (a : SReg) (off : BitVec 13) : exec (.bz a off) s = execBz a off s := rfl
@[simp] theorem exec_bnz (a : SReg) (off : BitVec 13) : exec (.bnz a off) s = execBnz a off s := rfl
@[simp] theorem exec_loop (k : BitVec 1) (c : SReg) (off : BitVec 18) : exec (.loop k c off) s = execLoop k c off s := rfl
@[simp] theorem exec_loopx (k : BitVec 1) : exec (.loopx k) s = execLoopx k s := rfl
@[simp] theorem exec_btab (d a : SReg) (list : List (BitVec 25)) : exec (.btab d a list) s = execBtab d a list s := rfl
@[simp] theorem exec_trap (a : SReg) (code : BitVec 12) : exec (.trap a code) s = execTrap a code s := rfl
@[simp] theorem exec_lane (a : SReg) (len : BitVec 6) (index : Word) : exec (.lane a len index) s = execLane a len index s := rfl
@[simp] theorem exec_spawn (d a b : SReg) (scope : BitVec 3) : exec (.spawn d a b scope) s = execSpawn d a b scope s := rfl
@[simp] theorem exec_barInit (d a b : SReg) : exec (.barInit d a b) s = execBarInit d a b s := rfl
@[simp] theorem exec_barArrive (d a : SReg) (scope : BitVec 6) : exec (.barArrive d a scope) s = execBarArrive d a scope s := rfl
@[simp] theorem exec_barExpect (d a b : SReg) : exec (.barExpect d a b) s = execBarExpect d a b s := rfl
@[simp] theorem exec_barDrop (d a : SReg) (scope : BitVec 6) : exec (.barDrop d a scope) s = execBarDrop d a scope s := rfl
@[simp] theorem exec_barWait (d a b : SReg) : exec (.barWait d a b) s = execBarWait d a b s := rfl
@[simp] theorem exec_barTest (d a b : SReg) : exec (.barTest d a b) s = execBarTest d a b s := rfl
@[simp] theorem exec_safe (n : BitVec 10) : exec (.safe n) s = execSafe n s := rfl
@[simp] theorem exec_enter (id : BitVec 12) : exec (.enter id) s = execEnter id s := rfl
@[simp] theorem exec_leave : exec (.leave) s = execLeave s := rfl
@[simp] theorem exec_mma (d a b : SReg) (ext : Word) : exec (.mma d a b ext) s = execMma d a b ext s := rfl
@[simp] theorem exec_mmas (d a b : SReg) (ext : Word) : exec (.mmas d a b ext) s = execMmas d a b ext s := rfl
@[simp] theorem exec_mres (d a b : SReg) (at3 : BitVec 3) (mb : BitVec 4) : exec (.mres d a b at3 mb) s = execMres d a b at3 mb s := rfl
@[simp] theorem exec_mcommit (d : SReg) : exec (.mcommit d) s = execMcommit d s := rfl
@[simp] theorem exec_mwait (a : SReg) : exec (.mwait a) s = execMwait a s := rfl
@[simp] theorem exec_mfence : exec (.mfence) s = execMfence s := rfl
@[simp] theorem exec_mresume : exec (.mresume) s = execMresume s := rfl
@[simp] theorem exec_mstat (d : SReg) (item : BitVec 7) : exec (.mstat d item) s = execMstat d item s := rfl
@[simp] theorem exec_vnop (w : LaneWord) : exec (.vnop w) s = execVnop w s := rfl
@[simp] theorem exec_vadd (w : LaneWord) : exec (.vadd w) s = execVadd w s := rfl
@[simp] theorem exec_vsub (w : LaneWord) : exec (.vsub w) s = execVsub w s := rfl
@[simp] theorem exec_vmul (w : LaneWord) : exec (.vmul w) s = execVmul w s := rfl
@[simp] theorem exec_vmulh (w : LaneWord) : exec (.vmulh w) s = execVmulh w s := rfl
@[simp] theorem exec_vmad (w : LaneWord) : exec (.vmad w) s = execVmad w s := rfl
@[simp] theorem exec_vand (w : LaneWord) : exec (.vand w) s = execVand w s := rfl
@[simp] theorem exec_vor (w : LaneWord) : exec (.vor w) s = execVor w s := rfl
@[simp] theorem exec_vxor (w : LaneWord) : exec (.vxor w) s = execVxor w s := rfl
@[simp] theorem exec_vandn (w : LaneWord) : exec (.vandn w) s = execVandn w s := rfl
@[simp] theorem exec_vshl (w : LaneWord) : exec (.vshl w) s = execVshl w s := rfl
@[simp] theorem exec_vshr (w : LaneWord) : exec (.vshr w) s = execVshr w s := rfl
@[simp] theorem exec_vsra (w : LaneWord) : exec (.vsra w) s = execVsra w s := rfl
@[simp] theorem exec_vmin (w : LaneWord) : exec (.vmin w) s = execVmin w s := rfl
@[simp] theorem exec_vmax (w : LaneWord) : exec (.vmax w) s = execVmax w s := rfl
@[simp] theorem exec_vabs (w : LaneWord) : exec (.vabs w) s = execVabs w s := rfl
@[simp] theorem exec_vneg (w : LaneWord) : exec (.vneg w) s = execVneg w s := rfl
@[simp] theorem exec_vcmp (w : LaneWord) : exec (.vcmp w) s = execVcmp w s := rfl
@[simp] theorem exec_vsel (w : LaneWord) : exec (.vsel w) s = execVsel w s := rfl
@[simp] theorem exec_vpopc (w : LaneWord) : exec (.vpopc w) s = execVpopc w s := rfl
@[simp] theorem exec_vclz (w : LaneWord) : exec (.vclz w) s = execVclz w s := rfl
@[simp] theorem exec_vctz (w : LaneWord) : exec (.vctz w) s = execVctz w s := rfl
@[simp] theorem exec_vbfe (w : LaneWord) : exec (.vbfe w) s = execVbfe w s := rfl
@[simp] theorem exec_vbfi (w : LaneWord) : exec (.vbfi w) s = execVbfi w s := rfl
@[simp] theorem exec_vaddsat (w : LaneWord) : exec (.vaddsat w) s = execVaddsat w s := rfl
@[simp] theorem exec_vsubsat (w : LaneWord) : exec (.vsubsat w) s = execVsubsat w s := rfl
@[simp] theorem exec_vdot4 (w : LaneWord) : exec (.vdot4 w) s = execVdot4 w s := rfl
@[simp] theorem exec_vbool (w : LaneWord) : exec (.vbool w) s = execVbool w s := rfl
@[simp] theorem exec_vfadd (w : LaneWord) : exec (.vfadd w) s = execVfadd w s := rfl
@[simp] theorem exec_vfsub (w : LaneWord) : exec (.vfsub w) s = execVfsub w s := rfl
@[simp] theorem exec_vfmul (w : LaneWord) : exec (.vfmul w) s = execVfmul w s := rfl
@[simp] theorem exec_vfma (w : LaneWord) : exec (.vfma w) s = execVfma w s := rfl
@[simp] theorem exec_vfmin (w : LaneWord) : exec (.vfmin w) s = execVfmin w s := rfl
@[simp] theorem exec_vfmax (w : LaneWord) : exec (.vfmax w) s = execVfmax w s := rfl
@[simp] theorem exec_vfcmp (w : LaneWord) : exec (.vfcmp w) s = execVfcmp w s := rfl
@[simp] theorem exec_vfclass (w : LaneWord) : exec (.vfclass w) s = execVfclass w s := rfl
@[simp] theorem exec_vrcp (w : LaneWord) : exec (.vrcp w) s = execVrcp w s := rfl
@[simp] theorem exec_vrsq (w : LaneWord) : exec (.vrsq w) s = execVrsq w s := rfl
@[simp] theorem exec_vsqrt (w : LaneWord) : exec (.vsqrt w) s = execVsqrt w s := rfl
@[simp] theorem exec_vexp2 (w : LaneWord) : exec (.vexp2 w) s = execVexp2 w s := rfl
@[simp] theorem exec_vlog2 (w : LaneWord) : exec (.vlog2 w) s = execVlog2 w s := rfl
@[simp] theorem exec_vcvt (w : LaneWord) : exec (.vcvt w) s = execVcvt w s := rfl
@[simp] theorem exec_vfrnd (w : LaneWord) : exec (.vfrnd w) s = execVfrnd w s := rfl
@[simp] theorem exec_vscale (w : LaneWord) : exec (.vscale w) s = execVscale w s := rfl
@[simp] theorem exec_vpack (w : LaneWord) : exec (.vpack w) s = execVpack w s := rfl
@[simp] theorem exec_vunpk (w : LaneWord) : exec (.vunpk w) s = execVunpk w s := rfl
@[simp] theorem exec_vmxq (w : LaneWord) : exec (.vmxq w) s = execVmxq w s := rfl
@[simp] theorem exec_vmxd (w : LaneWord) : exec (.vmxd w) s = execVmxd w s := rfl
@[simp] theorem exec_vshuf (w : LaneWord) : exec (.vshuf w) s = execVshuf w s := rfl
@[simp] theorem exec_vshufx (w : LaneWord) : exec (.vshufx w) s = execVshufx w s := rfl
@[simp] theorem exec_vshift (w : LaneWord) : exec (.vshift w) s = execVshift w s := rfl
@[simp] theorem exec_vbcast (w : LaneWord) : exec (.vbcast w) s = execVbcast w s := rfl
@[simp] theorem exec_vvote (w : LaneWord) : exec (.vvote w) s = execVvote w s := rfl
@[simp] theorem exec_vredx (w : LaneWord) : exec (.vredx w) s = execVredx w s := rfl
@[simp] theorem exec_vscan (w : LaneWord) : exec (.vscan w) s = execVscan w s := rfl
@[simp] theorem exec_vxs (w : LaneWord) : exec (.vxs w) s = execVxs w s := rfl
@[simp] theorem exec_vmatch (w : LaneWord) : exec (.vmatch w) s = execVmatch w s := rfl
@[simp] theorem exec_vld (w : LaneWord) : exec (.vld w) s = execVld w s := rfl
@[simp] theorem exec_vst (w : LaneWord) : exec (.vst w) s = execVst w s := rfl
@[simp] theorem exec_vatom (w : LaneWord) : exec (.vatom w) s = execVatom w s := rfl
@[simp] theorem exec_vred (w : LaneWord) : exec (.vred w) s = execVred w s := rfl
@[simp] theorem exec_vredo (w : LaneWord) : exec (.vredo w) s = execVredo w s := rfl
@[simp] theorem exec_vldf (w : LaneWord) : exec (.vldf w) s = execVldf w s := rfl
@[simp] theorem exec_vstf (w : LaneWord) : exec (.vstf w) s = execVstf w s := rfl
@[simp] theorem exec_vspawn (w : LaneWord) : exec (.vspawn w) s = execVspawn w s := rfl
@[simp] theorem exec_vldt (w : LaneWord) : exec (.vldt w) s = execVldt w s := rfl
@[simp] theorem exec_vldb (w : LaneWord) : exec (.vldb w) s = execVldb w s := rfl
@[simp] theorem exec_vstb (w : LaneWord) : exec (.vstb w) s = execVstb w s := rfl
@[simp] theorem exec_vpref (w : LaneWord) : exec (.vpref w) s = execVpref w s := rfl
@[simp] theorem exec_exportWrite (c : Nat) : exec (.exportWrite c) s = execExportWrite c s := rfl
@[simp] theorem exec_loadReturn (c k : Nat) (reply : Reply) : exec (.loadReturn c k reply) s = execLoadReturn c k reply s := rfl
@[simp] theorem exec_vldfAnswer (c k : Nat) : exec (.vldfAnswer c k) s = execVldfAnswer c k s := rfl
@[simp] theorem exec_cohortWake (c : Nat) : exec (.cohortWake c) s = execCohortWake c s := rfl
@[simp] theorem exec_starvationLift (c : Nat) (lane : Bool) : exec (.starvationLift c lane) s = execStarvationLift c lane s := rfl
@[simp] theorem exec_riscvInstruction (op : RvOp) (short : Bool) : exec (.riscvInstruction op short) s = execRiscvInstruction op short s := rfl
@[simp] theorem exec_ecall : exec (.ecall) s = execEcall s := rfl
@[simp] theorem exec_tld (rd rs1 : XReg) : exec (.tld rd rs1) s = execTld rd rs1 s := rfl
@[simp] theorem exec_tldt (rd rs1 : XReg) : exec (.tldt rd rs1) s = execTldt rd rs1 s := rfl
@[simp] theorem exec_tlds (rd rs1 : XReg) : exec (.tlds rd rs1) s = execTlds rd rs1 s := rfl
@[simp] theorem exec_tgath (rd rs1 : XReg) : exec (.tgath rd rs1) s = execTgath rd rs1 s := rfl
@[simp] theorem exec_tst (rd rs1 : XReg) : exec (.tst rd rs1) s = execTst rd rs1 s := rfl
@[simp] theorem exec_tcopy (rd rs1 : XReg) : exec (.tcopy rd rs1) s = execTcopy rd rs1 s := rfl
@[simp] theorem exec_tbarArrive (rd rs1 : XReg) : exec (.tbarArrive rd rs1) s = execTbarArrive rd rs1 s := rfl
@[simp] theorem exec_tbarExpect (rd rs1 rs2 : XReg) : exec (.tbarExpect rd rs1 rs2) s = execTbarExpect rd rs1 rs2 s := rfl
@[simp] theorem exec_tbarWait (rd rs1 rs2 : XReg) : exec (.tbarWait rd rs1 rs2) s = execTbarWait rd rs1 rs2 s := rfl
@[simp] theorem exec_tbarTest (rd rs1 rs2 : XReg) : exec (.tbarTest rd rs1 rs2) s = execTbarTest rd rs1 rs2 s := rfl
@[simp] theorem exec_twait (rd rs1 : XReg) : exec (.twait rd rs1) s = execTwait rd rs1 s := rfl
@[simp] theorem exec_tfence : exec (.tfence) s = execTfence s := rfl
@[simp] theorem exec_tstat (rd rs1 : XReg) : exec (.tstat rd rs1) s = execTstat rd rs1 s := rfl
@[simp] theorem exec_tres (rd rs1 : XReg) : exec (.tres rd rs1) s = execTres rd rs1 s := rfl
@[simp] theorem exec_tkill (rd rs1 : XReg) : exec (.tkill rd rs1) s = execTkill rd rs1 s := rfl
@[simp] theorem exec_tileCommandStart (g : Nat) (st : Bool) (slot : Nat) : exec (.tileCommandStart g st slot) s = execTileCommandStart g st slot s := rfl
@[simp] theorem exec_tileRowComplete (g : Nat) (st : Bool) (slot row : Nat) (lost : Bool) :
    exec (.tileRowComplete g st slot row lost) s = execTileRowComplete g st slot row lost s := rfl
@[simp] theorem exec_tileCommandComplete (g : Nat) (st : Bool) (slot : Nat) : exec (.tileCommandComplete g st slot) s = execTileCommandComplete g st slot s := rfl
@[simp] theorem exec_tileCommandStop (g : Nat) (st : Bool) (slot : Nat) (refused : Bool) :
    exec (.tileCommandStop g st slot refused) s = execTileCommandStop g st slot refused s := rfl
@[simp] theorem exec_matrixStep (core : Nat) : exec (.matrixStep core) s = execMatrixStep core s := rfl
@[simp] theorem exec_engineWaitGrant (core k : Nat) : exec (.engineWaitGrant core k) s = execEngineWaitGrant core k s := rfl
@[simp] theorem exec_matrixOpFinish (core : Nat) : exec (.matrixOpFinish core) s = execMatrixOpFinish core s := rfl
@[simp] theorem exec_batchComplete (c : Nat) : exec (.batchComplete c) s = execBatchComplete c s := rfl
@[simp] theorem exec_pageWalk (core t : Nat) (va : Dword) (kind : AccessKind) : exec (.pageWalk core t va kind) s = execPageWalk core t va kind s := rfl
@[simp] theorem exec_faultRingPost (t k : Nat) : exec (.faultRingPost t k) s = execFaultRingPost t k s := rfl
@[simp] theorem exec_txctlWrite (t : Nat) (v : Dword) : exec (.txctlWrite t v) s = execTxctlWrite t v s := rfl
@[simp] theorem exec_txfrtWrite (t : Nat) (v : Dword) : exec (.txfrtWrite t v) s = execTxfrtWrite t v s := rfl
@[simp] theorem exec_txfresAccept (t : Nat) (seq : Word) : exec (.txfresAccept t seq) s = execTxfresAccept t seq s := rfl
@[simp] theorem exec_txfresReject (t : Nat) (seq : Word) : exec (.txfresReject t seq) s = execTxfresReject t seq s := rfl
@[simp] theorem exec_txinvAll (t : Nat) : exec (.txinvAll t) s = execTxinvAll t s := rfl
@[simp] theorem exec_txinvRange (t : Nat) (page : BitVec 44) : exec (.txinvRange t page) s = execTxinvRange t page s := rfl
@[simp] theorem exec_txinvNone (t : Nat) (kind : BitVec 2) : exec (.txinvNone t kind) s = execTxinvNone t kind s := rfl
@[simp] theorem exec_invalidationComplete (t : Nat) : exec (.invalidationComplete t) s = execInvalidationComplete t s := rfl
@[simp] theorem exec_homeSliceWrite (core k : Nat) : exec (.homeSliceWrite core k) s = execHomeSliceWrite core k s := rfl
@[simp] theorem exec_sliceAtomic (core k : Nat) : exec (.sliceAtomic core k) s = execSliceAtomic core k s := rfl
@[simp] theorem exec_reductionApply (core k : Nat) : exec (.reductionApply core k) s = execReductionApply core k s := rfl
@[simp] theorem exec_futureRequest (core k : Nat) : exec (.futureRequest core k) s = execFutureRequest core k s := rfl
@[simp] theorem exec_vredoEntry (core k : Nat) : exec (.vredoEntry core k) s = execVredoEntry core k s := rfl
@[simp] theorem exec_orderedFlush (slice slot : Nat) : exec (.orderedFlush slice slot) s = execOrderedFlush slice slot s := rfl
@[simp] theorem exec_l1dLineExpiry (core k : Nat) : exec (.l1dLineExpiry core k) s = execL1dLineExpiry core k s := rfl
@[simp] theorem exec_patrolScrub : exec (.patrolScrub) s = execPatrolScrub s := rfl
@[simp] theorem exec_storageSweep : exec (.storageSweep) s = execStorageSweep s := rfl
@[simp] theorem exec_errorDetect (e : ErrorSite) : exec (.errorDetect e) s = execErrorDetect e s := rfl
@[simp] theorem exec_errorRecordPost : exec (.errorRecordPost) s = execErrorRecordPost s := rfl
@[simp] theorem exec_doorbell (q : Nat) (v : Dword) : exec (.doorbell q v) s = execDoorbell q v s := rfl
@[simp] theorem exec_queueEnable (q : Nat) (v : Dword) : exec (.queueEnable q v) s = execQueueEnable q v s := rfl
@[simp] theorem exec_queueDisable (q : Nat) (v : Dword) : exec (.queueDisable q v) s = execQueueDisable q v s := rfl
@[simp] theorem exec_queueRestart (q : Nat) (v : Dword) : exec (.queueRestart q v) s = execQueueRestart q v s := rfl
@[simp] theorem exec_qtokClear (q : Nat) (v : Dword) : exec (.qtokClear q v) s = execQtokClear q v s := rfl
@[simp] theorem exec_qtoksSet (q : Nat) (v : Dword) : exec (.qtoksSet q v) s = execQtoksSet q v s := rfl
@[simp] theorem exec_qirqcArm (q : Nat) (v : Dword) : exec (.qirqcArm q v) s = execQirqcArm q v s := rfl
@[simp] theorem exec_packetFetch (q : Nat) : exec (.packetFetch q) s = execPacketFetch q s := rfl
@[simp] theorem exec_packetRefetch (q : Nat) : exec (.packetRefetch q) s = execPacketRefetch q s := rfl
@[simp] theorem exec_nopPacket (q n : Nat) : exec (.nopPacket q n) s = execNopPacket q n s := rfl
@[simp] theorem exec_graph (q n : Nat) : exec (.graph q n) s = execGraph q n s := rfl
@[simp] theorem exec_graphCreate (q n : Nat) : exec (.graphCreate q n) s = execGraphCreate q n s := rfl
@[simp] theorem exec_copy (q n : Nat) : exec (.copy q n) s = execCopy q n s := rfl
@[simp] theorem exec_signal (q n : Nat) : exec (.signal q n) s = execSignal q n s := rfl
@[simp] theorem exec_wait (q n : Nat) : exec (.wait q n) s = execWait q n s := rfl
@[simp] theorem exec_withdraw (q n : Nat) : exec (.withdraw q n) s = execWithdraw q n s := rfl
@[simp] theorem exec_vacate (q n : Nat) : exec (.vacate q n) s = execVacate q n s := rfl
@[simp] theorem exec_vacateReturn (q n : Nat) : exec (.vacateReturn q n) s = execVacateReturn q n s := rfl
@[simp] theorem exec_capstart (q n : Nat) : exec (.capstart q n) s = execCapstart q n s := rfl
@[simp] theorem exec_capstop (q n : Nat) : exec (.capstop q n) s = execCapstop q n s := rfl
@[simp] theorem exec_redflush (q n : Nat) : exec (.redflush q n) s = execRedflush q n s := rfl
@[simp] theorem exec_packetComplete (q n : Nat) : exec (.packetComplete q n) s = execPacketComplete q n s := rfl
@[simp] theorem exec_launchDestroy (fn : Nat) (v : Dword) : exec (.launchDestroy fn v) s = execLaunchDestroy fn v s := rfl
@[simp] theorem exec_recordArrival (die k : Nat) : exec (.recordArrival die k) s = execRecordArrival die k s := rfl
@[simp] theorem exec_spawnerWake (die k : Nat) : exec (.spawnerWake die k) s = execSpawnerWake die k s := rfl
@[simp] theorem exec_packTimerExpiry (die k : Nat) : exec (.packTimerExpiry die k) s = execPackTimerExpiry die k s := rfl
@[simp] theorem exec_groupFormTimer (die k : Nat) : exec (.groupFormTimer die k) s = execGroupFormTimer die k s := rfl
@[simp] theorem exec_launchCandidate (die : Nat) : exec (.launchCandidate die) s = execLaunchCandidate die s := rfl
@[simp] theorem exec_recordPageSpill (die : Nat) : exec (.recordPageSpill die) s = execRecordPageSpill die s := rfl
@[simp] theorem exec_recordPageReadback (die : Nat) : exec (.recordPageReadback die) s = execRecordPageReadback die s := rfl
@[simp] theorem exec_gangWaitExpiry (die k : Nat) : exec (.gangWaitExpiry die k) s = execGangWaitExpiry die k s := rfl
@[simp] theorem exec_gangClosure (die k : Nat) : exec (.gangClosure die k) s = execGangClosure die k s := rfl
@[simp] theorem exec_groupEviction (die g : Nat) : exec (.groupEviction die g) s = execGroupEviction die g s := rfl
@[simp] theorem exec_fDead (slot : Nat) : exec (.fDead slot) s = execFDead slot s := rfl
@[simp] theorem exec_launchComplete (slot : Nat) : exec (.launchComplete slot) s = execLaunchComplete slot s := rfl
@[simp] theorem exec_launchFaultEnd (slot : Nat) : exec (.launchFaultEnd slot) s = execLaunchFaultEnd slot s := rfl
@[simp] theorem exec_trapEntry (c : Nat) : exec (.trapEntry c) s = execTrapEntry c s := rfl
@[simp] theorem exec_groupSave (g : Nat) : exec (.groupSave g) s = execGroupSave g s := rfl
@[simp] theorem exec_groupResume (die k : Nat) : exec (.groupResume die k) s = execGroupResume die k s := rfl
@[simp] theorem exec_traceSample (core : Nat) : exec (.traceSample core) s = execTraceSample core s := rfl
@[simp] theorem exec_traceEnable (t : Nat) (v : Dword) : exec (.traceEnable t v) s = execTraceEnable t v s := rfl
@[simp] theorem exec_dbgcmdRead (t : Nat) (v : Dword) : exec (.dbgcmdRead t v) s = execDbgcmdRead t v s := rfl
@[simp] theorem exec_dbgcmdWrite (t : Nat) (v : Dword) : exec (.dbgcmdWrite t v) s = execDbgcmdWrite t v s := rfl
@[simp] theorem exec_dbgcmdResume (t : Nat) (v : Dword) : exec (.dbgcmdResume t v) s = execDbgcmdResume t v s := rfl
@[simp] theorem exec_dbgcmdHalt (t : Nat) (v : Dword) : exec (.dbgcmdHalt t v) s = execDbgcmdHalt t v s := rfl
@[simp] theorem exec_dbgrClear (t : Nat) : exec (.dbgrClear t) s = execDbgrClear t s := rfl
@[simp] theorem exec_moduleReset : exec (.moduleReset) s = execModuleReset s := rfl
@[simp] theorem exec_bringupStep : exec (.bringupStep) s = execBringupStep s := rfl
@[simp] theorem exec_attest (v : Dword) : exec (.attest v) s = execAttest v s := rfl
@[simp] theorem exec_attestComplete : exec (.attestComplete) s = execAttestComplete s := rfl
@[simp] theorem exec_errorRingEnable (v : Dword) : exec (.errorRingEnable v) s = execErrorRingEnable v s := rfl
@[simp] theorem exec_watchdogExpiry (fw : Nat) : exec (.watchdogExpiry fw) s = execWatchdogExpiry fw s := rfl
@[simp] theorem exec_coreQuarantine (core : Nat) : exec (.coreQuarantine core) s = execCoreQuarantine core s := rfl
@[simp] theorem exec_linkRetrain (port : Nat) : exec (.linkRetrain port) s = execLinkRetrain port s := rfl
@[simp] theorem exec_clockThrottle (up : Bool) : exec (.clockThrottle up) s = execClockThrottle up s := rfl
@[simp] theorem exec_powerLoss : exec (.powerLoss) s = execPowerLoss s := rfl
@[simp] theorem exec_hostBar2Access (off len : Nat) (data : Option (List Byte)) : exec (.hostBar2Access off len data) s = execHostBar2Access off len data s := rfl
@[simp] theorem exec_systemAccessCompletion (c k : Nat) (err : Bool) : exec (.systemAccessCompletion c k err) s = execSystemAccessCompletion c k err s := rfl
@[simp] theorem exec_remoteAccessArrival (a : RemoteAccess) : exec (.remoteAccessArrival a) s = execRemoteAccessArrival a s := rfl
@[simp] theorem exec_remoteTimeout (core k : Nat) : exec (.remoteTimeout core k) s = execRemoteTimeout core k s := rfl
@[simp] theorem exec_portFailure (port : Nat) : exec (.portFailure port) s = execPortFailure port s := rfl
@[simp] theorem exec_remoteCreditReturn (pkg k cause : Nat) : exec (.remoteCreditReturn pkg k cause) s = execRemoteCreditReturn pkg k cause s := rfl
@[simp] theorem exec_pkgctlWrite (v : Dword) : exec (.pkgctlWrite v) s = execPkgctlWrite v s := rfl
@[simp] theorem exec_tlbindWrite (t : Nat) (v : Dword) : exec (.tlbindWrite t v) s = execTlbindWrite t v s := rfl
@[simp] theorem exec_registerWrite (fn off size : Nat) (v : Dword) : exec (.registerWrite fn off size v) s = execRegisterWrite fn off size v s := rfl
@[simp] theorem exec_dieResetEnd (die : Nat) : exec (.dieResetEnd die) s = execDieResetEnd die s := rfl
@[simp] theorem exec_linkRetrainEnd (port : Nat) : exec (.linkRetrainEnd port) s = execLinkRetrainEnd port s := rfl
@[simp] theorem exec_firmwareCoreSignal (fw : Nat) : exec (.firmwareCoreSignal fw) s = execFirmwareCoreSignal fw s := rfl
@[simp] theorem exec_remoteWriteAcknowledgement (core k : Nat) (refused : Bool) : exec (.remoteWriteAcknowledgement core k refused) s = execRemoteWriteAcknowledgement core k refused s := rfl
@[simp] theorem exec_dbgcmdBadCommand (t : Nat) (v : Dword) : exec (.dbgcmdBadCommand t v) s = execDbgcmdBadCommand t v s := rfl
@[simp] theorem exec_powerMeasurement (watts : Word) : exec (.powerMeasurement watts) s = execPowerMeasurement watts s := rfl

end Sys2Proof.Machine
end

