-- ==== Sys2Proof/Laws/Tables.lean ====
section
/-! SUPPORT. What tables, and bytes in a table, read as after a change, and that every change keeps the canonical form. -/

namespace Sys2Proof.Machine

variable {α : Type}

theorem lookup_erase_same (m : List (Nat × α)) (k : Nat) : lookup (erase m k) k = none := by
  induction m with
  | nil => rfl
  | cons p r ih =>
    by_cases h : p.1 = k
    · simpa [erase, h] using ih
    · simpa [erase, h, lookup] using ih

theorem erase_cons (p : Nat × α) (m : List (Nat × α)) (k : Nat) :
    erase (p :: m) k = if p.1 = k then erase m k else p :: erase m k := by
  by_cases h : p.1 = k <;> simp [erase, h]

theorem lookup_erase_other (m : List (Nat × α)) {j k : Nat} (h : j ≠ k) : lookup (erase m k) j = lookup m j := by
  induction m with
  | nil => rfl
  | cons p r ih =>
    rw [erase_cons]
    split
    · rename_i hp
      have : ¬ p.1 = j := fun e => h (by omega)
      simpa [lookup, this] using ih
    · simp [lookup, ih]

theorem lookup_insertKey_same (m : List (Nat × α)) (k : Nat) (v : α) (h : lookup m k = none) :
    lookup (insertKey m k v) k = some v := by
  induction m with
  | nil => simp [insertKey, lookup]
  | cons p r ih =>
    obtain ⟨j, w⟩ := p
    by_cases hj : j = k
    · simp [lookup, hj] at h
    · simp only [lookup, hj, if_false] at h
      unfold insertKey
      split
      · simp [lookup]
      · simpa [lookup, hj] using ih h

theorem lookup_insertKey_other (m : List (Nat × α)) {j k : Nat} (v : α) (h : j ≠ k) :
    lookup (insertKey m k v) j = lookup m j := by
  have hk : ¬ k = j := fun e => h e.symm
  induction m with
  | nil => simp [insertKey, lookup, hk]
  | cons p r ih =>
    obtain ⟨i, w⟩ := p
    unfold insertKey
    split
    · simp [lookup, hk]
    · by_cases hi : i = j
      · simp [lookup, hi]
      · simpa [lookup, hi] using ih

@[simp] theorem lookup_store_same (m : List (Nat × α)) (k : Nat) (v : α) : lookup (store m k v) k = some v :=
  lookup_insertKey_same _ _ _ (lookup_erase_same m k)

theorem lookup_store_other (m : List (Nat × α)) {j k : Nat} (v : α) (h : j ≠ k) :
    lookup (store m k v) j = lookup m j := by
  simp [store, lookup_insertKey_other _ v h, lookup_erase_other m h]

@[simp] theorem get_store_same (d : α) (m : List (Nat × α)) (k : Nat) (v : α) : get d (store m k v) k = v := by simp [get]

theorem get_store_other (d : α) (m : List (Nat × α)) {j k : Nat} (v : α) (h : j ≠ k) :
    get d (store m k v) j = get d m j := by simp [get, lookup_store_other m v h]

@[simp] theorem get_put_same [DecidableEq α] (d : α) (m : List (Nat × α)) (k : Nat) (v : α) : get d (put d m k v) k = v := by
  unfold put; split
  · simp [get, lookup_erase_same, *]
  · simp

theorem get_put_other [DecidableEq α] (d : α) (m : List (Nat × α)) {j k : Nat} (v : α) (h : j ≠ k) :
    get d (put d m k v) j = get d m j := by
  unfold put; split
  · simp [get, lookup_erase_other m h]
  · exact get_store_other d m v h

theorem get_put [DecidableEq α] (d : α) (m : List (Nat × α)) (j k : Nat) (v : α) :
    get d (put d m k v) j = if j = k then v else get d m j := by
  by_cases h : j = k
  · simp [h]
  · simp [h, get_put_other d m v h]

@[simp] theorem lookup_updateKey_same (m : List (Nat × α)) (k : Nat) (f : α → α) :
    lookup (updateKey m k f) k = (lookup m k).map f := by
  induction m with
  | nil => rfl
  | cons p r ih =>
    by_cases h : p.1 = k
    · simp [updateKey, lookup, h]
    · simpa [updateKey, lookup, h] using ih

theorem lookup_updateKey_other (m : List (Nat × α)) {j k : Nat} (f : α → α) (h : j ≠ k) :
    lookup (updateKey m k f) j = lookup m j := by
  induction m with
  | nil => rfl
  | cons p r ih =>
    show lookup ((if p.1 = k then (p.1, f p.2) else p) :: updateKey r k f) j = _
    split
    · rename_i hp
      have : ¬ p.1 = j := fun e => h (by omega)
      simpa [lookup, this] using ih
    · simp [lookup, ih]

/-! ## Canonical form -/

/-- Every key of a table comes after k. -/
def below (k : Nat) (m : List (Nat × α)) : Prop := ∀ p ∈ m, k < p.1

theorem rising_cons (p : Nat × α) (m : List (Nat × α)) : rising (p :: m) = true ↔ below p.1 m ∧ rising m = true := by
  induction m generalizing p with
  | nil => simp [rising, below]
  | cons q r ih =>
    simp only [rising, Bool.and_eq_true, decide_eq_true_eq]
    constructor
    · rintro ⟨h, hr⟩
      refine ⟨?_, hr⟩
      intro x hx
      rcases List.mem_cons.mp hx with rfl | hx
      · exact h
      · exact Nat.lt_trans h (((ih q).mp hr).1 x hx)
    · rintro ⟨h, hr⟩
      exact ⟨h q (by simp), hr⟩

theorem below_erase {k : Nat} {m : List (Nat × α)} (j : Nat) (h : below k m) : below k (erase m j) :=
  fun p hp => h p (List.mem_filter.mp hp).1

theorem rising_erase (m : List (Nat × α)) (k : Nat) (h : rising m = true) : rising (erase m k) = true := by
  induction m with
  | nil => rfl
  | cons p r ih =>
    have h' := (rising_cons p r).mp h
    by_cases hp : p.1 = k
    · simpa [erase, hp] using ih h'.2
    · have e : erase (p :: r) k = p :: erase r k := by simp [erase, hp]
      rw [e]
      exact (rising_cons _ _).mpr ⟨below_erase k h'.1, ih h'.2⟩

theorem mem_insertKey {m : List (Nat × α)} {k : Nat} {v : α} {p : Nat × α} (h : p ∈ insertKey m k v) : p = (k, v) ∨ p ∈ m := by
  induction m with
  | nil => simpa [insertKey] using h
  | cons q r ih =>
    obtain ⟨j, w⟩ := q
    unfold insertKey at h
    split at h
    · rcases List.mem_cons.mp h with h | h
      · exact .inl h
      · exact .inr h
    · rcases List.mem_cons.mp h with h | h
      · exact .inr (by simp [h])
      · rcases ih h with h | h
        · exact .inl h
        · exact .inr (List.mem_cons_of_mem _ h)

theorem rising_insertKey (m : List (Nat × α)) (k : Nat) (v : α) (hk : ∀ p ∈ m, p.1 ≠ k) (h : rising m = true) :
    rising (insertKey m k v) = true := by
  induction m with
  | nil => rfl
  | cons q r ih =>
    obtain ⟨j, w⟩ := q
    have h' := (rising_cons (j, w) r).mp h
    have hj : j ≠ k := hk (j, w) (by simp)
    unfold insertKey
    split
    · rename_i hlt
      refine (rising_cons _ _).mpr ⟨?_, h⟩
      intro p hp
      rcases List.mem_cons.mp hp with rfl | hp
      · exact hlt
      · exact Nat.lt_trans hlt (h'.1 p hp)
    · rename_i hlt
      refine (rising_cons _ _).mpr ⟨?_, ih (fun p hp => hk p (by simp [hp])) h'.2⟩
      intro p hp
      rcases mem_insertKey hp with rfl | hp
      · show j < k
        omega
      · exact h'.1 p hp

theorem mem_erase {m : List (Nat × α)} {k : Nat} {p : Nat × α} (h : p ∈ erase m k) : p ∈ m ∧ p.1 ≠ k := by
  have := List.mem_filter.mp h
  exact ⟨this.1, by simpa using this.2⟩

theorem canonical_iff [DecidableEq α] (d : α) (m : List (Nat × α)) :
    canonical d m = true ↔ rising m = true ∧ ∀ p ∈ m, p.2 ≠ d := by
  simp [canonical, List.all_eq_true]

/-- A write keeps the canonical form. -/
theorem canonical_put [DecidableEq α] (d : α) (m : List (Nat × α)) (k : Nat) (v : α) (h : canonical d m = true) :
    canonical d (put d m k v) = true := by
  rw [canonical_iff] at h ⊢
  have he := rising_erase m k h.1
  unfold put
  split
  · exact ⟨he, fun p hp => h.2 p (mem_erase hp).1⟩
  · rename_i hv
    refine ⟨rising_insertKey _ _ _ (fun p hp => (mem_erase hp).2) he, fun p hp => ?_⟩
    rcases mem_insertKey hp with rfl | hp
    · exact hv
    · exact h.2 p (mem_erase hp).1

theorem rising_filter (m : List (Nat × α)) (f : Nat × α → Bool) (h : rising m = true) : rising (m.filter f) = true := by
  induction m with
  | nil => rfl
  | cons p r ih =>
    have h' := (rising_cons p r).mp h
    by_cases hp : f p = true
    · rw [List.filter_cons_of_pos hp]
      exact (rising_cons _ _).mpr ⟨fun q hq => h'.1 q (List.mem_filter.mp hq).1, ih h'.2⟩
    · rw [List.filter_cons_of_neg hp]
      exact ih h'.2

/-- Entries taken out keep the canonical form. -/
theorem canonical_filter [DecidableEq α] (d : α) (m : List (Nat × α)) (f : Nat × α → Bool) (h : canonical d m = true) :
    canonical d (m.filter f) = true := by
  rw [canonical_iff] at h ⊢
  exact ⟨rising_filter m f h.1, fun p hp => h.2 p (List.mem_filter.mp hp).1⟩

/-! ## Bytes -/

/-- Writing cells keeps the canonical form of a table of bytes. -/
theorem wf_writeCells (m cs : List Host.Cell) (h : Memory.wf m = true) : Memory.wf (writeCells m cs) = true := by
  induction cs generalizing m with
  | nil => exact h
  | cons c r ih => exact ih _ (canonical_put 0 m c.1 c.2 h)

theorem wf_filter (m : List Host.Cell) (f : Host.Cell → Bool) (h : Memory.wf m = true) : Memory.wf (m.filter f) = true :=
  canonical_filter 0 m f h

/-- A byte that no written cell names reads as before. -/
theorem get_writeCells_other (m cs : List Host.Cell) (a : Nat) (h : ∀ c ∈ cs, c.1 ≠ a) :
    get 0 (writeCells m cs) a = get 0 m a := by
  induction cs generalizing m with
  | nil => rfl
  | cons c r ih =>
    have hc : a ≠ c.1 := fun e => h c (by simp) e.symm
    show get 0 (writeCells (put 0 m c.1 c.2) r) a = _
    rw [ih _ (fun x hx => h x (by simp [hx])), get_put_other 0 m c.2 hc]

theorem cellsOf_fst (a : Nat) (b : List Byte) (c : Host.Cell) (h : c ∈ cellsOf a b) : a ≤ c.1 ∧ c.1 < a + b.length := by
  induction b generalizing a with
  | nil => cases h
  | cons x r ih =>
    rcases List.mem_cons.mp h with rfl | h
    · exact ⟨Nat.le_refl _, by simp⟩
    · have := ih (a + 1) h
      simp only [List.length_cons]
      omega

theorem bytesAt_length (m : List Host.Cell) (a n : Nat) : (bytesAt m a n).length = n := by
  induction n generalizing a with
  | zero => rfl
  | succ n ih => simp [bytesAt, ih]

/-- A byte string reads back from where it has been written. -/
theorem bytesAt_writeCells (m : List Host.Cell) (a : Nat) (b : List Byte) :
    bytesAt (writeCells m (cellsOf a b)) a b.length = b := by
  induction b generalizing m a with
  | nil => rfl
  | cons x r ih =>
    show get 0 (writeCells (put 0 m a x) (cellsOf (a + 1) r)) a ::
      bytesAt (writeCells (put 0 m a x) (cellsOf (a + 1) r)) (a + 1) r.length = _
    rw [ih, get_writeCells_other _ _ _ (fun c hc => by have := cellsOf_fst _ _ _ hc; omega), get_put_same]

/-! ## Free places -/

theorem firstFree_some {used : List Nat} {n k : Nat} (h : firstFree used n = some k) : k < n ∧ k ∉ used := by
  refine ⟨List.mem_range.mp (List.mem_of_find?_eq_some h), ?_⟩
  simpa using List.find?_some h

/-- What a pick gives: a free number below n. -/
theorem pickFree_some {used : List Nat} {n k : Nat} (h : pickFree used n = some k) : k < n ∧ k ∉ used := by
  unfold pickFree at h
  split at h
  · cases h
  · rename_i j hj
    have hj' := firstFree_some hj
    cases h
    split
    · rename_i hp
      simpa using hp
    · exact ⟨by omega, hj'.2⟩

/-- A list that holds every number below n has at least n entries. -/
theorem le_length_of_all (n : Nat) (used : List Nat) (h : ∀ j < n, j ∈ used) : n ≤ used.length := by
  induction n generalizing used with
  | zero => exact Nat.zero_le _
  | succ n ih =>
    have hn := h n (Nat.lt_succ_self n)
    have := ih (used.erase n) (fun j hj => (List.mem_erase_of_ne (by omega)).mpr (h j (by omega)))
    rw [List.length_erase_of_mem hn] at this
    have := List.length_pos_of_mem hn
    omega

/-- A pick gives a number where one is free. -/
theorem pickFree_isSome {used : List Nat} {n a : Nat} (h : a < n) (ha : a ∉ used) : ∃ k, pickFree used n = some k := by
  unfold pickFree
  split
  · rename_i hc
    have hall : ∀ j < min n (used.length + 1), j ∈ used := by simpa [firstFree] using hc
    rcases Nat.lt_or_ge a (used.length + 1) with h1 | h1
    · exact absurd (hall a (by omega)) ha
    · have := le_length_of_all (used.length + 1) used (fun j hj => hall j (by omega))
      omega
  · exact ⟨_, rfl⟩

/-- The mapping of R97 loses nothing: a place gives back the granule that it came from. -/
theorem hbmGranule_hbmMap (pa : Nat) (h : pa < 2 ^ 40) : hbmGranule (hbmMap pa) = pa / 256 := by
  have hx : ∀ a b c : Nat, a ^^^ b ^^^ c ^^^ b ^^^ c = a := fun a b c => by
    rw [Nat.xor_assoc (a ^^^ b) c b, Nat.xor_comm c b, ← Nat.xor_assoc, Nat.xor_assoc a b b, Nat.xor_self, Nat.xor_zero, Nat.xor_assoc,
      Nat.xor_self, Nat.xor_zero]
  have hy : ∀ a b : Nat, a ^^^ b ^^^ b = a := fun a b => by rw [Nat.xor_assoc, Nat.xor_self, Nat.xor_zero]
  have h1 : ∀ g, bitsOf (bitsOf g 31 10) 5 2 = bitsOf g 15 12 ∧ bitsOf (bitsOf g 31 10) 17 14 = bitsOf g 27 24 ∧
      bitsOf (bitsOf g 31 10) 10 6 = bitsOf g 20 16 ∧ bitsOf (bitsOf g 31 10) 11 11 = bitsOf g 21 21 := fun g => by
    simp only [bitsOf]; omega
  simp only [hbmGranule, hbmMap, h1, hx, hy]
  simp only [bitsOf]
  omega

end Sys2Proof.Machine
end

