-- ==== Sys2Proof/Laws/State.lean ====
section
/-! SUPPORT. What every field and every entity of the state reads as after each of the state's own updates. -/

namespace Sys2Proof.Machine.State

variable (s : State) (k : Nat)

/-! ## Core -/

@[simp] theorem setCore_powered (v : Core) : (s.setCore k v).powered = s.powered := rfl
@[simp] theorem setCore_mem (v : Core) : (s.setCore k v).mem = s.mem := rfl
@[simp] theorem setCore_badLines (v : Core) : (s.setCore k v).badLines = s.badLines := rfl
@[simp] theorem setCore_clk (v : Core) : (s.setCore k v).clk = s.clk := rfl
@[simp] theorem setCore_agenda (v : Core) : (s.setCore k v).agenda = s.agenda := rfl
@[simp] theorem setCore_cur (v : Core) : (s.setCore k v).cur = s.cur := rfl
@[simp] theorem setCore_draw (v : Core) : (s.setCore k v).draw = s.draw := rfl
@[simp] theorem setCore_fresh (v : Core) : (s.setCore k v).fresh = s.fresh := rfl
@[simp] theorem setCore_msgs (v : Core) : (s.setCore k v).msgs = s.msgs := rfl
@[simp] theorem setCore_msix (v : Core) : (s.setCore k v).msix = s.msix := rfl
@[simp] theorem setCore_msixPend (v : Core) : (s.setCore k v).msixPend = s.msixPend := rfl
@[simp] theorem setCore_sysOut (v : Core) : (s.setCore k v).sysOut = s.sysOut := rfl
@[simp] theorem setCore_hostOut (v : Core) : (s.setCore k v).hostOut = s.hostOut := rfl
@[simp] theorem setCore_tenants (v : Core) : (s.setCore k v).tenants = s.tenants := rfl
@[simp] theorem setCore_queues (v : Core) : (s.setCore k v).queues = s.queues := rfl
@[simp] theorem setCore_starts (v : Core) : (s.setCore k v).starts = s.starts := rfl
@[simp] theorem setCore_gens (v : Core) : (s.setCore k v).gens = s.gens := rfl
@[simp] theorem setCore_launches (v : Core) : (s.setCore k v).launches = s.launches := rfl
@[simp] theorem setCore_dies (v : Core) : (s.setCore k v).dies = s.dies := rfl
@[simp] theorem setCore_groups (v : Core) : (s.setCore k v).groups = s.groups := rfl
@[simp] theorem setCore_cohorts (v : Core) : (s.setCore k v).cohorts = s.cohorts := rfl
@[simp] theorem setCore_slices (v : Core) : (s.setCore k v).slices = s.slices := rfl
@[simp] theorem setCore_link (v : Core) : (s.setCore k v).link = s.link := rfl
@[simp] theorem setCore_anvil (v : Core) : (s.setCore k v).anvil = s.anvil := rfl
@[simp] theorem setCore_die_at (v : Core) (j : Nat) : (s.setCore k v).die j = s.die j := rfl
@[simp] theorem setCore_tenant_at (v : Core) (j : Nat) : (s.setCore k v).tenant j = s.tenant j := rfl
@[simp] theorem setCore_queue_at (v : Core) (j : Nat) : (s.setCore k v).queue j = s.queue j := rfl
@[simp] theorem setCore_slice_at (v : Core) (j : Nat) : (s.setCore k v).slice j = s.slice j := rfl
@[simp] theorem setCore_gen_at (v : Core) (j : Nat) : (s.setCore k v).gen j = s.gen j := rfl
@[simp] theorem setCore_same (v : Core) : (s.setCore k v).core k = v := by simp [setCore, core]
theorem setCore_other (v : Core) {j : Nat} (h : j ≠ k) : (s.setCore k v).core j = s.core j := get_store_other _ _ v h
@[simp] theorem onCore_powered (f : Core → Core) : (s.onCore k f).powered = s.powered := rfl
@[simp] theorem onCore_mem (f : Core → Core) : (s.onCore k f).mem = s.mem := rfl
@[simp] theorem onCore_badLines (f : Core → Core) : (s.onCore k f).badLines = s.badLines := rfl
@[simp] theorem onCore_clk (f : Core → Core) : (s.onCore k f).clk = s.clk := rfl
@[simp] theorem onCore_agenda (f : Core → Core) : (s.onCore k f).agenda = s.agenda := rfl
@[simp] theorem onCore_cur (f : Core → Core) : (s.onCore k f).cur = s.cur := rfl
@[simp] theorem onCore_draw (f : Core → Core) : (s.onCore k f).draw = s.draw := rfl
@[simp] theorem onCore_fresh (f : Core → Core) : (s.onCore k f).fresh = s.fresh := rfl
@[simp] theorem onCore_msgs (f : Core → Core) : (s.onCore k f).msgs = s.msgs := rfl
@[simp] theorem onCore_msix (f : Core → Core) : (s.onCore k f).msix = s.msix := rfl
@[simp] theorem onCore_msixPend (f : Core → Core) : (s.onCore k f).msixPend = s.msixPend := rfl
@[simp] theorem onCore_sysOut (f : Core → Core) : (s.onCore k f).sysOut = s.sysOut := rfl
@[simp] theorem onCore_hostOut (f : Core → Core) : (s.onCore k f).hostOut = s.hostOut := rfl
@[simp] theorem onCore_tenants (f : Core → Core) : (s.onCore k f).tenants = s.tenants := rfl
@[simp] theorem onCore_queues (f : Core → Core) : (s.onCore k f).queues = s.queues := rfl
@[simp] theorem onCore_starts (f : Core → Core) : (s.onCore k f).starts = s.starts := rfl
@[simp] theorem onCore_gens (f : Core → Core) : (s.onCore k f).gens = s.gens := rfl
@[simp] theorem onCore_launches (f : Core → Core) : (s.onCore k f).launches = s.launches := rfl
@[simp] theorem onCore_dies (f : Core → Core) : (s.onCore k f).dies = s.dies := rfl
@[simp] theorem onCore_groups (f : Core → Core) : (s.onCore k f).groups = s.groups := rfl
@[simp] theorem onCore_cohorts (f : Core → Core) : (s.onCore k f).cohorts = s.cohorts := rfl
@[simp] theorem onCore_slices (f : Core → Core) : (s.onCore k f).slices = s.slices := rfl
@[simp] theorem onCore_link (f : Core → Core) : (s.onCore k f).link = s.link := rfl
@[simp] theorem onCore_anvil (f : Core → Core) : (s.onCore k f).anvil = s.anvil := rfl
@[simp] theorem onCore_die_at (f : Core → Core) (j : Nat) : (s.onCore k f).die j = s.die j := rfl
@[simp] theorem onCore_tenant_at (f : Core → Core) (j : Nat) : (s.onCore k f).tenant j = s.tenant j := rfl
@[simp] theorem onCore_queue_at (f : Core → Core) (j : Nat) : (s.onCore k f).queue j = s.queue j := rfl
@[simp] theorem onCore_slice_at (f : Core → Core) (j : Nat) : (s.onCore k f).slice j = s.slice j := rfl
@[simp] theorem onCore_gen_at (f : Core → Core) (j : Nat) : (s.onCore k f).gen j = s.gen j := rfl
@[simp] theorem onCore_same (f : Core → Core) : (s.onCore k f).core k = f (s.core k) := by simp [onCore]
theorem onCore_other (f : Core → Core) {j : Nat} (h : j ≠ k) : (s.onCore k f).core j = s.core j := get_store_other _ _ _ h

/-! ## Die -/

@[simp] theorem setDie_powered (v : Die) : (s.setDie k v).powered = s.powered := rfl
@[simp] theorem setDie_mem (v : Die) : (s.setDie k v).mem = s.mem := rfl
@[simp] theorem setDie_badLines (v : Die) : (s.setDie k v).badLines = s.badLines := rfl
@[simp] theorem setDie_clk (v : Die) : (s.setDie k v).clk = s.clk := rfl
@[simp] theorem setDie_agenda (v : Die) : (s.setDie k v).agenda = s.agenda := rfl
@[simp] theorem setDie_cur (v : Die) : (s.setDie k v).cur = s.cur := rfl
@[simp] theorem setDie_draw (v : Die) : (s.setDie k v).draw = s.draw := rfl
@[simp] theorem setDie_fresh (v : Die) : (s.setDie k v).fresh = s.fresh := rfl
@[simp] theorem setDie_msgs (v : Die) : (s.setDie k v).msgs = s.msgs := rfl
@[simp] theorem setDie_msix (v : Die) : (s.setDie k v).msix = s.msix := rfl
@[simp] theorem setDie_msixPend (v : Die) : (s.setDie k v).msixPend = s.msixPend := rfl
@[simp] theorem setDie_sysOut (v : Die) : (s.setDie k v).sysOut = s.sysOut := rfl
@[simp] theorem setDie_hostOut (v : Die) : (s.setDie k v).hostOut = s.hostOut := rfl
@[simp] theorem setDie_tenants (v : Die) : (s.setDie k v).tenants = s.tenants := rfl
@[simp] theorem setDie_queues (v : Die) : (s.setDie k v).queues = s.queues := rfl
@[simp] theorem setDie_starts (v : Die) : (s.setDie k v).starts = s.starts := rfl
@[simp] theorem setDie_gens (v : Die) : (s.setDie k v).gens = s.gens := rfl
@[simp] theorem setDie_launches (v : Die) : (s.setDie k v).launches = s.launches := rfl
@[simp] theorem setDie_cores (v : Die) : (s.setDie k v).cores = s.cores := rfl
@[simp] theorem setDie_groups (v : Die) : (s.setDie k v).groups = s.groups := rfl
@[simp] theorem setDie_cohorts (v : Die) : (s.setDie k v).cohorts = s.cohorts := rfl
@[simp] theorem setDie_slices (v : Die) : (s.setDie k v).slices = s.slices := rfl
@[simp] theorem setDie_link (v : Die) : (s.setDie k v).link = s.link := rfl
@[simp] theorem setDie_anvil (v : Die) : (s.setDie k v).anvil = s.anvil := rfl
@[simp] theorem setDie_core_at (v : Die) (j : Nat) : (s.setDie k v).core j = s.core j := rfl
@[simp] theorem setDie_tenant_at (v : Die) (j : Nat) : (s.setDie k v).tenant j = s.tenant j := rfl
@[simp] theorem setDie_queue_at (v : Die) (j : Nat) : (s.setDie k v).queue j = s.queue j := rfl
@[simp] theorem setDie_slice_at (v : Die) (j : Nat) : (s.setDie k v).slice j = s.slice j := rfl
@[simp] theorem setDie_gen_at (v : Die) (j : Nat) : (s.setDie k v).gen j = s.gen j := rfl
@[simp] theorem setDie_same (v : Die) : (s.setDie k v).die k = v := by simp [setDie, die]
theorem setDie_other (v : Die) {j : Nat} (h : j ≠ k) : (s.setDie k v).die j = s.die j := get_store_other _ _ v h
@[simp] theorem onDie_powered (f : Die → Die) : (s.onDie k f).powered = s.powered := rfl
@[simp] theorem onDie_mem (f : Die → Die) : (s.onDie k f).mem = s.mem := rfl
@[simp] theorem onDie_badLines (f : Die → Die) : (s.onDie k f).badLines = s.badLines := rfl
@[simp] theorem onDie_clk (f : Die → Die) : (s.onDie k f).clk = s.clk := rfl
@[simp] theorem onDie_agenda (f : Die → Die) : (s.onDie k f).agenda = s.agenda := rfl
@[simp] theorem onDie_cur (f : Die → Die) : (s.onDie k f).cur = s.cur := rfl
@[simp] theorem onDie_draw (f : Die → Die) : (s.onDie k f).draw = s.draw := rfl
@[simp] theorem onDie_fresh (f : Die → Die) : (s.onDie k f).fresh = s.fresh := rfl
@[simp] theorem onDie_msgs (f : Die → Die) : (s.onDie k f).msgs = s.msgs := rfl
@[simp] theorem onDie_msix (f : Die → Die) : (s.onDie k f).msix = s.msix := rfl
@[simp] theorem onDie_msixPend (f : Die → Die) : (s.onDie k f).msixPend = s.msixPend := rfl
@[simp] theorem onDie_sysOut (f : Die → Die) : (s.onDie k f).sysOut = s.sysOut := rfl
@[simp] theorem onDie_hostOut (f : Die → Die) : (s.onDie k f).hostOut = s.hostOut := rfl
@[simp] theorem onDie_tenants (f : Die → Die) : (s.onDie k f).tenants = s.tenants := rfl
@[simp] theorem onDie_queues (f : Die → Die) : (s.onDie k f).queues = s.queues := rfl
@[simp] theorem onDie_starts (f : Die → Die) : (s.onDie k f).starts = s.starts := rfl
@[simp] theorem onDie_gens (f : Die → Die) : (s.onDie k f).gens = s.gens := rfl
@[simp] theorem onDie_launches (f : Die → Die) : (s.onDie k f).launches = s.launches := rfl
@[simp] theorem onDie_cores (f : Die → Die) : (s.onDie k f).cores = s.cores := rfl
@[simp] theorem onDie_groups (f : Die → Die) : (s.onDie k f).groups = s.groups := rfl
@[simp] theorem onDie_cohorts (f : Die → Die) : (s.onDie k f).cohorts = s.cohorts := rfl
@[simp] theorem onDie_slices (f : Die → Die) : (s.onDie k f).slices = s.slices := rfl
@[simp] theorem onDie_link (f : Die → Die) : (s.onDie k f).link = s.link := rfl
@[simp] theorem onDie_anvil (f : Die → Die) : (s.onDie k f).anvil = s.anvil := rfl
@[simp] theorem onDie_core_at (f : Die → Die) (j : Nat) : (s.onDie k f).core j = s.core j := rfl
@[simp] theorem onDie_tenant_at (f : Die → Die) (j : Nat) : (s.onDie k f).tenant j = s.tenant j := rfl
@[simp] theorem onDie_queue_at (f : Die → Die) (j : Nat) : (s.onDie k f).queue j = s.queue j := rfl
@[simp] theorem onDie_slice_at (f : Die → Die) (j : Nat) : (s.onDie k f).slice j = s.slice j := rfl
@[simp] theorem onDie_gen_at (f : Die → Die) (j : Nat) : (s.onDie k f).gen j = s.gen j := rfl
@[simp] theorem onDie_same (f : Die → Die) : (s.onDie k f).die k = f (s.die k) := by simp [onDie]
theorem onDie_other (f : Die → Die) {j : Nat} (h : j ≠ k) : (s.onDie k f).die j = s.die j := get_store_other _ _ _ h

/-! ## Tenant -/

@[simp] theorem setTenant_powered (v : Tenant) : (s.setTenant k v).powered = s.powered := rfl
@[simp] theorem setTenant_mem (v : Tenant) : (s.setTenant k v).mem = s.mem := rfl
@[simp] theorem setTenant_badLines (v : Tenant) : (s.setTenant k v).badLines = s.badLines := rfl
@[simp] theorem setTenant_clk (v : Tenant) : (s.setTenant k v).clk = s.clk := rfl
@[simp] theorem setTenant_agenda (v : Tenant) : (s.setTenant k v).agenda = s.agenda := rfl
@[simp] theorem setTenant_cur (v : Tenant) : (s.setTenant k v).cur = s.cur := rfl
@[simp] theorem setTenant_draw (v : Tenant) : (s.setTenant k v).draw = s.draw := rfl
@[simp] theorem setTenant_fresh (v : Tenant) : (s.setTenant k v).fresh = s.fresh := rfl
@[simp] theorem setTenant_msgs (v : Tenant) : (s.setTenant k v).msgs = s.msgs := rfl
@[simp] theorem setTenant_msix (v : Tenant) : (s.setTenant k v).msix = s.msix := rfl
@[simp] theorem setTenant_msixPend (v : Tenant) : (s.setTenant k v).msixPend = s.msixPend := rfl
@[simp] theorem setTenant_sysOut (v : Tenant) : (s.setTenant k v).sysOut = s.sysOut := rfl
@[simp] theorem setTenant_hostOut (v : Tenant) : (s.setTenant k v).hostOut = s.hostOut := rfl
@[simp] theorem setTenant_queues (v : Tenant) : (s.setTenant k v).queues = s.queues := rfl
@[simp] theorem setTenant_starts (v : Tenant) : (s.setTenant k v).starts = s.starts := rfl
@[simp] theorem setTenant_gens (v : Tenant) : (s.setTenant k v).gens = s.gens := rfl
@[simp] theorem setTenant_launches (v : Tenant) : (s.setTenant k v).launches = s.launches := rfl
@[simp] theorem setTenant_dies (v : Tenant) : (s.setTenant k v).dies = s.dies := rfl
@[simp] theorem setTenant_cores (v : Tenant) : (s.setTenant k v).cores = s.cores := rfl
@[simp] theorem setTenant_groups (v : Tenant) : (s.setTenant k v).groups = s.groups := rfl
@[simp] theorem setTenant_cohorts (v : Tenant) : (s.setTenant k v).cohorts = s.cohorts := rfl
@[simp] theorem setTenant_slices (v : Tenant) : (s.setTenant k v).slices = s.slices := rfl
@[simp] theorem setTenant_link (v : Tenant) : (s.setTenant k v).link = s.link := rfl
@[simp] theorem setTenant_anvil (v : Tenant) : (s.setTenant k v).anvil = s.anvil := rfl
@[simp] theorem setTenant_core_at (v : Tenant) (j : Nat) : (s.setTenant k v).core j = s.core j := rfl
@[simp] theorem setTenant_die_at (v : Tenant) (j : Nat) : (s.setTenant k v).die j = s.die j := rfl
@[simp] theorem setTenant_queue_at (v : Tenant) (j : Nat) : (s.setTenant k v).queue j = s.queue j := rfl
@[simp] theorem setTenant_slice_at (v : Tenant) (j : Nat) : (s.setTenant k v).slice j = s.slice j := rfl
@[simp] theorem setTenant_gen_at (v : Tenant) (j : Nat) : (s.setTenant k v).gen j = s.gen j := rfl
@[simp] theorem setTenant_same (v : Tenant) : (s.setTenant k v).tenant k = v := by simp [setTenant, tenant]
theorem setTenant_other (v : Tenant) {j : Nat} (h : j ≠ k) : (s.setTenant k v).tenant j = s.tenant j := get_store_other _ _ v h
@[simp] theorem onTenant_powered (f : Tenant → Tenant) : (s.onTenant k f).powered = s.powered := rfl
@[simp] theorem onTenant_mem (f : Tenant → Tenant) : (s.onTenant k f).mem = s.mem := rfl
@[simp] theorem onTenant_badLines (f : Tenant → Tenant) : (s.onTenant k f).badLines = s.badLines := rfl
@[simp] theorem onTenant_clk (f : Tenant → Tenant) : (s.onTenant k f).clk = s.clk := rfl
@[simp] theorem onTenant_agenda (f : Tenant → Tenant) : (s.onTenant k f).agenda = s.agenda := rfl
@[simp] theorem onTenant_cur (f : Tenant → Tenant) : (s.onTenant k f).cur = s.cur := rfl
@[simp] theorem onTenant_draw (f : Tenant → Tenant) : (s.onTenant k f).draw = s.draw := rfl
@[simp] theorem onTenant_fresh (f : Tenant → Tenant) : (s.onTenant k f).fresh = s.fresh := rfl
@[simp] theorem onTenant_msgs (f : Tenant → Tenant) : (s.onTenant k f).msgs = s.msgs := rfl
@[simp] theorem onTenant_msix (f : Tenant → Tenant) : (s.onTenant k f).msix = s.msix := rfl
@[simp] theorem onTenant_msixPend (f : Tenant → Tenant) : (s.onTenant k f).msixPend = s.msixPend := rfl
@[simp] theorem onTenant_sysOut (f : Tenant → Tenant) : (s.onTenant k f).sysOut = s.sysOut := rfl
@[simp] theorem onTenant_hostOut (f : Tenant → Tenant) : (s.onTenant k f).hostOut = s.hostOut := rfl
@[simp] theorem onTenant_queues (f : Tenant → Tenant) : (s.onTenant k f).queues = s.queues := rfl
@[simp] theorem onTenant_starts (f : Tenant → Tenant) : (s.onTenant k f).starts = s.starts := rfl
@[simp] theorem onTenant_gens (f : Tenant → Tenant) : (s.onTenant k f).gens = s.gens := rfl
@[simp] theorem onTenant_launches (f : Tenant → Tenant) : (s.onTenant k f).launches = s.launches := rfl
@[simp] theorem onTenant_dies (f : Tenant → Tenant) : (s.onTenant k f).dies = s.dies := rfl
@[simp] theorem onTenant_cores (f : Tenant → Tenant) : (s.onTenant k f).cores = s.cores := rfl
@[simp] theorem onTenant_groups (f : Tenant → Tenant) : (s.onTenant k f).groups = s.groups := rfl
@[simp] theorem onTenant_cohorts (f : Tenant → Tenant) : (s.onTenant k f).cohorts = s.cohorts := rfl
@[simp] theorem onTenant_slices (f : Tenant → Tenant) : (s.onTenant k f).slices = s.slices := rfl
@[simp] theorem onTenant_link (f : Tenant → Tenant) : (s.onTenant k f).link = s.link := rfl
@[simp] theorem onTenant_anvil (f : Tenant → Tenant) : (s.onTenant k f).anvil = s.anvil := rfl
@[simp] theorem onTenant_core_at (f : Tenant → Tenant) (j : Nat) : (s.onTenant k f).core j = s.core j := rfl
@[simp] theorem onTenant_die_at (f : Tenant → Tenant) (j : Nat) : (s.onTenant k f).die j = s.die j := rfl
@[simp] theorem onTenant_queue_at (f : Tenant → Tenant) (j : Nat) : (s.onTenant k f).queue j = s.queue j := rfl
@[simp] theorem onTenant_slice_at (f : Tenant → Tenant) (j : Nat) : (s.onTenant k f).slice j = s.slice j := rfl
@[simp] theorem onTenant_gen_at (f : Tenant → Tenant) (j : Nat) : (s.onTenant k f).gen j = s.gen j := rfl
@[simp] theorem onTenant_same (f : Tenant → Tenant) : (s.onTenant k f).tenant k = f (s.tenant k) := by simp [onTenant]
theorem onTenant_other (f : Tenant → Tenant) {j : Nat} (h : j ≠ k) : (s.onTenant k f).tenant j = s.tenant j := get_store_other _ _ _ h

/-! ## Queue -/

@[simp] theorem setQueue_powered (v : Queue) : (s.setQueue k v).powered = s.powered := rfl
@[simp] theorem setQueue_mem (v : Queue) : (s.setQueue k v).mem = s.mem := rfl
@[simp] theorem setQueue_badLines (v : Queue) : (s.setQueue k v).badLines = s.badLines := rfl
@[simp] theorem setQueue_clk (v : Queue) : (s.setQueue k v).clk = s.clk := rfl
@[simp] theorem setQueue_agenda (v : Queue) : (s.setQueue k v).agenda = s.agenda := rfl
@[simp] theorem setQueue_cur (v : Queue) : (s.setQueue k v).cur = s.cur := rfl
@[simp] theorem setQueue_draw (v : Queue) : (s.setQueue k v).draw = s.draw := rfl
@[simp] theorem setQueue_fresh (v : Queue) : (s.setQueue k v).fresh = s.fresh := rfl
@[simp] theorem setQueue_msgs (v : Queue) : (s.setQueue k v).msgs = s.msgs := rfl
@[simp] theorem setQueue_msix (v : Queue) : (s.setQueue k v).msix = s.msix := rfl
@[simp] theorem setQueue_msixPend (v : Queue) : (s.setQueue k v).msixPend = s.msixPend := rfl
@[simp] theorem setQueue_sysOut (v : Queue) : (s.setQueue k v).sysOut = s.sysOut := rfl
@[simp] theorem setQueue_hostOut (v : Queue) : (s.setQueue k v).hostOut = s.hostOut := rfl
@[simp] theorem setQueue_tenants (v : Queue) : (s.setQueue k v).tenants = s.tenants := rfl
@[simp] theorem setQueue_starts (v : Queue) : (s.setQueue k v).starts = s.starts := rfl
@[simp] theorem setQueue_gens (v : Queue) : (s.setQueue k v).gens = s.gens := rfl
@[simp] theorem setQueue_launches (v : Queue) : (s.setQueue k v).launches = s.launches := rfl
@[simp] theorem setQueue_dies (v : Queue) : (s.setQueue k v).dies = s.dies := rfl
@[simp] theorem setQueue_cores (v : Queue) : (s.setQueue k v).cores = s.cores := rfl
@[simp] theorem setQueue_groups (v : Queue) : (s.setQueue k v).groups = s.groups := rfl
@[simp] theorem setQueue_cohorts (v : Queue) : (s.setQueue k v).cohorts = s.cohorts := rfl
@[simp] theorem setQueue_slices (v : Queue) : (s.setQueue k v).slices = s.slices := rfl
@[simp] theorem setQueue_link (v : Queue) : (s.setQueue k v).link = s.link := rfl
@[simp] theorem setQueue_anvil (v : Queue) : (s.setQueue k v).anvil = s.anvil := rfl
@[simp] theorem setQueue_core_at (v : Queue) (j : Nat) : (s.setQueue k v).core j = s.core j := rfl
@[simp] theorem setQueue_die_at (v : Queue) (j : Nat) : (s.setQueue k v).die j = s.die j := rfl
@[simp] theorem setQueue_tenant_at (v : Queue) (j : Nat) : (s.setQueue k v).tenant j = s.tenant j := rfl
@[simp] theorem setQueue_slice_at (v : Queue) (j : Nat) : (s.setQueue k v).slice j = s.slice j := rfl
@[simp] theorem setQueue_gen_at (v : Queue) (j : Nat) : (s.setQueue k v).gen j = s.gen j := rfl
@[simp] theorem setQueue_same (v : Queue) : (s.setQueue k v).queue k = v := by simp [setQueue, queue]
theorem setQueue_other (v : Queue) {j : Nat} (h : j ≠ k) : (s.setQueue k v).queue j = s.queue j := get_store_other _ _ v h
@[simp] theorem onQueue_powered (f : Queue → Queue) : (s.onQueue k f).powered = s.powered := rfl
@[simp] theorem onQueue_mem (f : Queue → Queue) : (s.onQueue k f).mem = s.mem := rfl
@[simp] theorem onQueue_badLines (f : Queue → Queue) : (s.onQueue k f).badLines = s.badLines := rfl
@[simp] theorem onQueue_clk (f : Queue → Queue) : (s.onQueue k f).clk = s.clk := rfl
@[simp] theorem onQueue_agenda (f : Queue → Queue) : (s.onQueue k f).agenda = s.agenda := rfl
@[simp] theorem onQueue_cur (f : Queue → Queue) : (s.onQueue k f).cur = s.cur := rfl
@[simp] theorem onQueue_draw (f : Queue → Queue) : (s.onQueue k f).draw = s.draw := rfl
@[simp] theorem onQueue_fresh (f : Queue → Queue) : (s.onQueue k f).fresh = s.fresh := rfl
@[simp] theorem onQueue_msgs (f : Queue → Queue) : (s.onQueue k f).msgs = s.msgs := rfl
@[simp] theorem onQueue_msix (f : Queue → Queue) : (s.onQueue k f).msix = s.msix := rfl
@[simp] theorem onQueue_msixPend (f : Queue → Queue) : (s.onQueue k f).msixPend = s.msixPend := rfl
@[simp] theorem onQueue_sysOut (f : Queue → Queue) : (s.onQueue k f).sysOut = s.sysOut := rfl
@[simp] theorem onQueue_hostOut (f : Queue → Queue) : (s.onQueue k f).hostOut = s.hostOut := rfl
@[simp] theorem onQueue_tenants (f : Queue → Queue) : (s.onQueue k f).tenants = s.tenants := rfl
@[simp] theorem onQueue_starts (f : Queue → Queue) : (s.onQueue k f).starts = s.starts := rfl
@[simp] theorem onQueue_gens (f : Queue → Queue) : (s.onQueue k f).gens = s.gens := rfl
@[simp] theorem onQueue_launches (f : Queue → Queue) : (s.onQueue k f).launches = s.launches := rfl
@[simp] theorem onQueue_dies (f : Queue → Queue) : (s.onQueue k f).dies = s.dies := rfl
@[simp] theorem onQueue_cores (f : Queue → Queue) : (s.onQueue k f).cores = s.cores := rfl
@[simp] theorem onQueue_groups (f : Queue → Queue) : (s.onQueue k f).groups = s.groups := rfl
@[simp] theorem onQueue_cohorts (f : Queue → Queue) : (s.onQueue k f).cohorts = s.cohorts := rfl
@[simp] theorem onQueue_slices (f : Queue → Queue) : (s.onQueue k f).slices = s.slices := rfl
@[simp] theorem onQueue_link (f : Queue → Queue) : (s.onQueue k f).link = s.link := rfl
@[simp] theorem onQueue_anvil (f : Queue → Queue) : (s.onQueue k f).anvil = s.anvil := rfl
@[simp] theorem onQueue_core_at (f : Queue → Queue) (j : Nat) : (s.onQueue k f).core j = s.core j := rfl
@[simp] theorem onQueue_die_at (f : Queue → Queue) (j : Nat) : (s.onQueue k f).die j = s.die j := rfl
@[simp] theorem onQueue_tenant_at (f : Queue → Queue) (j : Nat) : (s.onQueue k f).tenant j = s.tenant j := rfl
@[simp] theorem onQueue_slice_at (f : Queue → Queue) (j : Nat) : (s.onQueue k f).slice j = s.slice j := rfl
@[simp] theorem onQueue_gen_at (f : Queue → Queue) (j : Nat) : (s.onQueue k f).gen j = s.gen j := rfl
@[simp] theorem onQueue_same (f : Queue → Queue) : (s.onQueue k f).queue k = f (s.queue k) := by simp [onQueue]
theorem onQueue_other (f : Queue → Queue) {j : Nat} (h : j ≠ k) : (s.onQueue k f).queue j = s.queue j := get_store_other _ _ _ h

/-! ## Slice -/

@[simp] theorem setSlice_powered (v : Slice) : (s.setSlice k v).powered = s.powered := rfl
@[simp] theorem setSlice_mem (v : Slice) : (s.setSlice k v).mem = s.mem := rfl
@[simp] theorem setSlice_badLines (v : Slice) : (s.setSlice k v).badLines = s.badLines := rfl
@[simp] theorem setSlice_clk (v : Slice) : (s.setSlice k v).clk = s.clk := rfl
@[simp] theorem setSlice_agenda (v : Slice) : (s.setSlice k v).agenda = s.agenda := rfl
@[simp] theorem setSlice_cur (v : Slice) : (s.setSlice k v).cur = s.cur := rfl
@[simp] theorem setSlice_draw (v : Slice) : (s.setSlice k v).draw = s.draw := rfl
@[simp] theorem setSlice_fresh (v : Slice) : (s.setSlice k v).fresh = s.fresh := rfl
@[simp] theorem setSlice_msgs (v : Slice) : (s.setSlice k v).msgs = s.msgs := rfl
@[simp] theorem setSlice_msix (v : Slice) : (s.setSlice k v).msix = s.msix := rfl
@[simp] theorem setSlice_msixPend (v : Slice) : (s.setSlice k v).msixPend = s.msixPend := rfl
@[simp] theorem setSlice_sysOut (v : Slice) : (s.setSlice k v).sysOut = s.sysOut := rfl
@[simp] theorem setSlice_hostOut (v : Slice) : (s.setSlice k v).hostOut = s.hostOut := rfl
@[simp] theorem setSlice_tenants (v : Slice) : (s.setSlice k v).tenants = s.tenants := rfl
@[simp] theorem setSlice_queues (v : Slice) : (s.setSlice k v).queues = s.queues := rfl
@[simp] theorem setSlice_starts (v : Slice) : (s.setSlice k v).starts = s.starts := rfl
@[simp] theorem setSlice_gens (v : Slice) : (s.setSlice k v).gens = s.gens := rfl
@[simp] theorem setSlice_launches (v : Slice) : (s.setSlice k v).launches = s.launches := rfl
@[simp] theorem setSlice_dies (v : Slice) : (s.setSlice k v).dies = s.dies := rfl
@[simp] theorem setSlice_cores (v : Slice) : (s.setSlice k v).cores = s.cores := rfl
@[simp] theorem setSlice_groups (v : Slice) : (s.setSlice k v).groups = s.groups := rfl
@[simp] theorem setSlice_cohorts (v : Slice) : (s.setSlice k v).cohorts = s.cohorts := rfl
@[simp] theorem setSlice_link (v : Slice) : (s.setSlice k v).link = s.link := rfl
@[simp] theorem setSlice_anvil (v : Slice) : (s.setSlice k v).anvil = s.anvil := rfl
@[simp] theorem setSlice_core_at (v : Slice) (j : Nat) : (s.setSlice k v).core j = s.core j := rfl
@[simp] theorem setSlice_die_at (v : Slice) (j : Nat) : (s.setSlice k v).die j = s.die j := rfl
@[simp] theorem setSlice_tenant_at (v : Slice) (j : Nat) : (s.setSlice k v).tenant j = s.tenant j := rfl
@[simp] theorem setSlice_queue_at (v : Slice) (j : Nat) : (s.setSlice k v).queue j = s.queue j := rfl
@[simp] theorem setSlice_gen_at (v : Slice) (j : Nat) : (s.setSlice k v).gen j = s.gen j := rfl
@[simp] theorem setSlice_same (v : Slice) : (s.setSlice k v).slice k = v := by simp [setSlice, slice]
theorem setSlice_other (v : Slice) {j : Nat} (h : j ≠ k) : (s.setSlice k v).slice j = s.slice j := get_store_other _ _ v h
@[simp] theorem onSlice_powered (f : Slice → Slice) : (s.onSlice k f).powered = s.powered := rfl
@[simp] theorem onSlice_mem (f : Slice → Slice) : (s.onSlice k f).mem = s.mem := rfl
@[simp] theorem onSlice_badLines (f : Slice → Slice) : (s.onSlice k f).badLines = s.badLines := rfl
@[simp] theorem onSlice_clk (f : Slice → Slice) : (s.onSlice k f).clk = s.clk := rfl
@[simp] theorem onSlice_agenda (f : Slice → Slice) : (s.onSlice k f).agenda = s.agenda := rfl
@[simp] theorem onSlice_cur (f : Slice → Slice) : (s.onSlice k f).cur = s.cur := rfl
@[simp] theorem onSlice_draw (f : Slice → Slice) : (s.onSlice k f).draw = s.draw := rfl
@[simp] theorem onSlice_fresh (f : Slice → Slice) : (s.onSlice k f).fresh = s.fresh := rfl
@[simp] theorem onSlice_msgs (f : Slice → Slice) : (s.onSlice k f).msgs = s.msgs := rfl
@[simp] theorem onSlice_msix (f : Slice → Slice) : (s.onSlice k f).msix = s.msix := rfl
@[simp] theorem onSlice_msixPend (f : Slice → Slice) : (s.onSlice k f).msixPend = s.msixPend := rfl
@[simp] theorem onSlice_sysOut (f : Slice → Slice) : (s.onSlice k f).sysOut = s.sysOut := rfl
@[simp] theorem onSlice_hostOut (f : Slice → Slice) : (s.onSlice k f).hostOut = s.hostOut := rfl
@[simp] theorem onSlice_tenants (f : Slice → Slice) : (s.onSlice k f).tenants = s.tenants := rfl
@[simp] theorem onSlice_queues (f : Slice → Slice) : (s.onSlice k f).queues = s.queues := rfl
@[simp] theorem onSlice_starts (f : Slice → Slice) : (s.onSlice k f).starts = s.starts := rfl
@[simp] theorem onSlice_gens (f : Slice → Slice) : (s.onSlice k f).gens = s.gens := rfl
@[simp] theorem onSlice_launches (f : Slice → Slice) : (s.onSlice k f).launches = s.launches := rfl
@[simp] theorem onSlice_dies (f : Slice → Slice) : (s.onSlice k f).dies = s.dies := rfl
@[simp] theorem onSlice_cores (f : Slice → Slice) : (s.onSlice k f).cores = s.cores := rfl
@[simp] theorem onSlice_groups (f : Slice → Slice) : (s.onSlice k f).groups = s.groups := rfl
@[simp] theorem onSlice_cohorts (f : Slice → Slice) : (s.onSlice k f).cohorts = s.cohorts := rfl
@[simp] theorem onSlice_link (f : Slice → Slice) : (s.onSlice k f).link = s.link := rfl
@[simp] theorem onSlice_anvil (f : Slice → Slice) : (s.onSlice k f).anvil = s.anvil := rfl
@[simp] theorem onSlice_core_at (f : Slice → Slice) (j : Nat) : (s.onSlice k f).core j = s.core j := rfl
@[simp] theorem onSlice_die_at (f : Slice → Slice) (j : Nat) : (s.onSlice k f).die j = s.die j := rfl
@[simp] theorem onSlice_tenant_at (f : Slice → Slice) (j : Nat) : (s.onSlice k f).tenant j = s.tenant j := rfl
@[simp] theorem onSlice_queue_at (f : Slice → Slice) (j : Nat) : (s.onSlice k f).queue j = s.queue j := rfl
@[simp] theorem onSlice_gen_at (f : Slice → Slice) (j : Nat) : (s.onSlice k f).gen j = s.gen j := rfl
@[simp] theorem onSlice_same (f : Slice → Slice) : (s.onSlice k f).slice k = f (s.slice k) := by simp [onSlice]
theorem onSlice_other (f : Slice → Slice) {j : Nat} (h : j ≠ k) : (s.onSlice k f).slice j = s.slice j := get_store_other _ _ _ h

/-! ## Cohort -/

@[simp] theorem setCohort_powered (v : Cohort) : (s.setCohort k v).powered = s.powered := rfl
@[simp] theorem setCohort_mem (v : Cohort) : (s.setCohort k v).mem = s.mem := rfl
@[simp] theorem setCohort_badLines (v : Cohort) : (s.setCohort k v).badLines = s.badLines := rfl
@[simp] theorem setCohort_clk (v : Cohort) : (s.setCohort k v).clk = s.clk := rfl
@[simp] theorem setCohort_agenda (v : Cohort) : (s.setCohort k v).agenda = s.agenda := rfl
@[simp] theorem setCohort_cur (v : Cohort) : (s.setCohort k v).cur = s.cur := rfl
@[simp] theorem setCohort_draw (v : Cohort) : (s.setCohort k v).draw = s.draw := rfl
@[simp] theorem setCohort_fresh (v : Cohort) : (s.setCohort k v).fresh = s.fresh := rfl
@[simp] theorem setCohort_msgs (v : Cohort) : (s.setCohort k v).msgs = s.msgs := rfl
@[simp] theorem setCohort_msix (v : Cohort) : (s.setCohort k v).msix = s.msix := rfl
@[simp] theorem setCohort_msixPend (v : Cohort) : (s.setCohort k v).msixPend = s.msixPend := rfl
@[simp] theorem setCohort_sysOut (v : Cohort) : (s.setCohort k v).sysOut = s.sysOut := rfl
@[simp] theorem setCohort_hostOut (v : Cohort) : (s.setCohort k v).hostOut = s.hostOut := rfl
@[simp] theorem setCohort_tenants (v : Cohort) : (s.setCohort k v).tenants = s.tenants := rfl
@[simp] theorem setCohort_queues (v : Cohort) : (s.setCohort k v).queues = s.queues := rfl
@[simp] theorem setCohort_starts (v : Cohort) : (s.setCohort k v).starts = s.starts := rfl
@[simp] theorem setCohort_gens (v : Cohort) : (s.setCohort k v).gens = s.gens := rfl
@[simp] theorem setCohort_launches (v : Cohort) : (s.setCohort k v).launches = s.launches := rfl
@[simp] theorem setCohort_dies (v : Cohort) : (s.setCohort k v).dies = s.dies := rfl
@[simp] theorem setCohort_cores (v : Cohort) : (s.setCohort k v).cores = s.cores := rfl
@[simp] theorem setCohort_groups (v : Cohort) : (s.setCohort k v).groups = s.groups := rfl
@[simp] theorem setCohort_slices (v : Cohort) : (s.setCohort k v).slices = s.slices := rfl
@[simp] theorem setCohort_link (v : Cohort) : (s.setCohort k v).link = s.link := rfl
@[simp] theorem setCohort_anvil (v : Cohort) : (s.setCohort k v).anvil = s.anvil := rfl
@[simp] theorem setCohort_core_at (v : Cohort) (j : Nat) : (s.setCohort k v).core j = s.core j := rfl
@[simp] theorem setCohort_die_at (v : Cohort) (j : Nat) : (s.setCohort k v).die j = s.die j := rfl
@[simp] theorem setCohort_tenant_at (v : Cohort) (j : Nat) : (s.setCohort k v).tenant j = s.tenant j := rfl
@[simp] theorem setCohort_queue_at (v : Cohort) (j : Nat) : (s.setCohort k v).queue j = s.queue j := rfl
@[simp] theorem setCohort_slice_at (v : Cohort) (j : Nat) : (s.setCohort k v).slice j = s.slice j := rfl
@[simp] theorem setCohort_gen_at (v : Cohort) (j : Nat) : (s.setCohort k v).gen j = s.gen j := rfl
@[simp] theorem setCohort_same (v : Cohort) : lookup (s.setCohort k v).cohorts k = some v := lookup_store_same _ _ v
theorem setCohort_other (v : Cohort) {j : Nat} (h : j ≠ k) : lookup (s.setCohort k v).cohorts j = lookup s.cohorts j := lookup_store_other _ v h
@[simp] theorem onCohort_powered (f : Cohort → Cohort) : (s.onCohort k f).powered = s.powered := rfl
@[simp] theorem onCohort_mem (f : Cohort → Cohort) : (s.onCohort k f).mem = s.mem := rfl
@[simp] theorem onCohort_badLines (f : Cohort → Cohort) : (s.onCohort k f).badLines = s.badLines := rfl
@[simp] theorem onCohort_clk (f : Cohort → Cohort) : (s.onCohort k f).clk = s.clk := rfl
@[simp] theorem onCohort_agenda (f : Cohort → Cohort) : (s.onCohort k f).agenda = s.agenda := rfl
@[simp] theorem onCohort_cur (f : Cohort → Cohort) : (s.onCohort k f).cur = s.cur := rfl
@[simp] theorem onCohort_draw (f : Cohort → Cohort) : (s.onCohort k f).draw = s.draw := rfl
@[simp] theorem onCohort_fresh (f : Cohort → Cohort) : (s.onCohort k f).fresh = s.fresh := rfl
@[simp] theorem onCohort_msgs (f : Cohort → Cohort) : (s.onCohort k f).msgs = s.msgs := rfl
@[simp] theorem onCohort_msix (f : Cohort → Cohort) : (s.onCohort k f).msix = s.msix := rfl
@[simp] theorem onCohort_msixPend (f : Cohort → Cohort) : (s.onCohort k f).msixPend = s.msixPend := rfl
@[simp] theorem onCohort_sysOut (f : Cohort → Cohort) : (s.onCohort k f).sysOut = s.sysOut := rfl
@[simp] theorem onCohort_hostOut (f : Cohort → Cohort) : (s.onCohort k f).hostOut = s.hostOut := rfl
@[simp] theorem onCohort_tenants (f : Cohort → Cohort) : (s.onCohort k f).tenants = s.tenants := rfl
@[simp] theorem onCohort_queues (f : Cohort → Cohort) : (s.onCohort k f).queues = s.queues := rfl
@[simp] theorem onCohort_starts (f : Cohort → Cohort) : (s.onCohort k f).starts = s.starts := rfl
@[simp] theorem onCohort_gens (f : Cohort → Cohort) : (s.onCohort k f).gens = s.gens := rfl
@[simp] theorem onCohort_launches (f : Cohort → Cohort) : (s.onCohort k f).launches = s.launches := rfl
@[simp] theorem onCohort_dies (f : Cohort → Cohort) : (s.onCohort k f).dies = s.dies := rfl
@[simp] theorem onCohort_cores (f : Cohort → Cohort) : (s.onCohort k f).cores = s.cores := rfl
@[simp] theorem onCohort_groups (f : Cohort → Cohort) : (s.onCohort k f).groups = s.groups := rfl
@[simp] theorem onCohort_slices (f : Cohort → Cohort) : (s.onCohort k f).slices = s.slices := rfl
@[simp] theorem onCohort_link (f : Cohort → Cohort) : (s.onCohort k f).link = s.link := rfl
@[simp] theorem onCohort_anvil (f : Cohort → Cohort) : (s.onCohort k f).anvil = s.anvil := rfl
@[simp] theorem onCohort_core_at (f : Cohort → Cohort) (j : Nat) : (s.onCohort k f).core j = s.core j := rfl
@[simp] theorem onCohort_die_at (f : Cohort → Cohort) (j : Nat) : (s.onCohort k f).die j = s.die j := rfl
@[simp] theorem onCohort_tenant_at (f : Cohort → Cohort) (j : Nat) : (s.onCohort k f).tenant j = s.tenant j := rfl
@[simp] theorem onCohort_queue_at (f : Cohort → Cohort) (j : Nat) : (s.onCohort k f).queue j = s.queue j := rfl
@[simp] theorem onCohort_slice_at (f : Cohort → Cohort) (j : Nat) : (s.onCohort k f).slice j = s.slice j := rfl
@[simp] theorem onCohort_gen_at (f : Cohort → Cohort) (j : Nat) : (s.onCohort k f).gen j = s.gen j := rfl
@[simp] theorem onCohort_same (f : Cohort → Cohort) : lookup (s.onCohort k f).cohorts k = (lookup s.cohorts k).map f := lookup_updateKey_same _ k f
theorem onCohort_other (f : Cohort → Cohort) {j : Nat} (h : j ≠ k) : lookup (s.onCohort k f).cohorts j = lookup s.cohorts j := lookup_updateKey_other _ f h

/-! ## Group -/

@[simp] theorem setGroup_powered (v : Group) : (s.setGroup k v).powered = s.powered := rfl
@[simp] theorem setGroup_mem (v : Group) : (s.setGroup k v).mem = s.mem := rfl
@[simp] theorem setGroup_badLines (v : Group) : (s.setGroup k v).badLines = s.badLines := rfl
@[simp] theorem setGroup_clk (v : Group) : (s.setGroup k v).clk = s.clk := rfl
@[simp] theorem setGroup_agenda (v : Group) : (s.setGroup k v).agenda = s.agenda := rfl
@[simp] theorem setGroup_cur (v : Group) : (s.setGroup k v).cur = s.cur := rfl
@[simp] theorem setGroup_draw (v : Group) : (s.setGroup k v).draw = s.draw := rfl
@[simp] theorem setGroup_fresh (v : Group) : (s.setGroup k v).fresh = s.fresh := rfl
@[simp] theorem setGroup_msgs (v : Group) : (s.setGroup k v).msgs = s.msgs := rfl
@[simp] theorem setGroup_msix (v : Group) : (s.setGroup k v).msix = s.msix := rfl
@[simp] theorem setGroup_msixPend (v : Group) : (s.setGroup k v).msixPend = s.msixPend := rfl
@[simp] theorem setGroup_sysOut (v : Group) : (s.setGroup k v).sysOut = s.sysOut := rfl
@[simp] theorem setGroup_hostOut (v : Group) : (s.setGroup k v).hostOut = s.hostOut := rfl
@[simp] theorem setGroup_tenants (v : Group) : (s.setGroup k v).tenants = s.tenants := rfl
@[simp] theorem setGroup_queues (v : Group) : (s.setGroup k v).queues = s.queues := rfl
@[simp] theorem setGroup_starts (v : Group) : (s.setGroup k v).starts = s.starts := rfl
@[simp] theorem setGroup_gens (v : Group) : (s.setGroup k v).gens = s.gens := rfl
@[simp] theorem setGroup_launches (v : Group) : (s.setGroup k v).launches = s.launches := rfl
@[simp] theorem setGroup_dies (v : Group) : (s.setGroup k v).dies = s.dies := rfl
@[simp] theorem setGroup_cores (v : Group) : (s.setGroup k v).cores = s.cores := rfl
@[simp] theorem setGroup_cohorts (v : Group) : (s.setGroup k v).cohorts = s.cohorts := rfl
@[simp] theorem setGroup_slices (v : Group) : (s.setGroup k v).slices = s.slices := rfl
@[simp] theorem setGroup_link (v : Group) : (s.setGroup k v).link = s.link := rfl
@[simp] theorem setGroup_anvil (v : Group) : (s.setGroup k v).anvil = s.anvil := rfl
@[simp] theorem setGroup_core_at (v : Group) (j : Nat) : (s.setGroup k v).core j = s.core j := rfl
@[simp] theorem setGroup_die_at (v : Group) (j : Nat) : (s.setGroup k v).die j = s.die j := rfl
@[simp] theorem setGroup_tenant_at (v : Group) (j : Nat) : (s.setGroup k v).tenant j = s.tenant j := rfl
@[simp] theorem setGroup_queue_at (v : Group) (j : Nat) : (s.setGroup k v).queue j = s.queue j := rfl
@[simp] theorem setGroup_slice_at (v : Group) (j : Nat) : (s.setGroup k v).slice j = s.slice j := rfl
@[simp] theorem setGroup_gen_at (v : Group) (j : Nat) : (s.setGroup k v).gen j = s.gen j := rfl
@[simp] theorem setGroup_same (v : Group) : lookup (s.setGroup k v).groups k = some v := lookup_store_same _ _ v
theorem setGroup_other (v : Group) {j : Nat} (h : j ≠ k) : lookup (s.setGroup k v).groups j = lookup s.groups j := lookup_store_other _ v h
@[simp] theorem onGroup_powered (f : Group → Group) : (s.onGroup k f).powered = s.powered := rfl
@[simp] theorem onGroup_mem (f : Group → Group) : (s.onGroup k f).mem = s.mem := rfl
@[simp] theorem onGroup_badLines (f : Group → Group) : (s.onGroup k f).badLines = s.badLines := rfl
@[simp] theorem onGroup_clk (f : Group → Group) : (s.onGroup k f).clk = s.clk := rfl
@[simp] theorem onGroup_agenda (f : Group → Group) : (s.onGroup k f).agenda = s.agenda := rfl
@[simp] theorem onGroup_cur (f : Group → Group) : (s.onGroup k f).cur = s.cur := rfl
@[simp] theorem onGroup_draw (f : Group → Group) : (s.onGroup k f).draw = s.draw := rfl
@[simp] theorem onGroup_fresh (f : Group → Group) : (s.onGroup k f).fresh = s.fresh := rfl
@[simp] theorem onGroup_msgs (f : Group → Group) : (s.onGroup k f).msgs = s.msgs := rfl
@[simp] theorem onGroup_msix (f : Group → Group) : (s.onGroup k f).msix = s.msix := rfl
@[simp] theorem onGroup_msixPend (f : Group → Group) : (s.onGroup k f).msixPend = s.msixPend := rfl
@[simp] theorem onGroup_sysOut (f : Group → Group) : (s.onGroup k f).sysOut = s.sysOut := rfl
@[simp] theorem onGroup_hostOut (f : Group → Group) : (s.onGroup k f).hostOut = s.hostOut := rfl
@[simp] theorem onGroup_tenants (f : Group → Group) : (s.onGroup k f).tenants = s.tenants := rfl
@[simp] theorem onGroup_queues (f : Group → Group) : (s.onGroup k f).queues = s.queues := rfl
@[simp] theorem onGroup_starts (f : Group → Group) : (s.onGroup k f).starts = s.starts := rfl
@[simp] theorem onGroup_gens (f : Group → Group) : (s.onGroup k f).gens = s.gens := rfl
@[simp] theorem onGroup_launches (f : Group → Group) : (s.onGroup k f).launches = s.launches := rfl
@[simp] theorem onGroup_dies (f : Group → Group) : (s.onGroup k f).dies = s.dies := rfl
@[simp] theorem onGroup_cores (f : Group → Group) : (s.onGroup k f).cores = s.cores := rfl
@[simp] theorem onGroup_cohorts (f : Group → Group) : (s.onGroup k f).cohorts = s.cohorts := rfl
@[simp] theorem onGroup_slices (f : Group → Group) : (s.onGroup k f).slices = s.slices := rfl
@[simp] theorem onGroup_link (f : Group → Group) : (s.onGroup k f).link = s.link := rfl
@[simp] theorem onGroup_anvil (f : Group → Group) : (s.onGroup k f).anvil = s.anvil := rfl
@[simp] theorem onGroup_core_at (f : Group → Group) (j : Nat) : (s.onGroup k f).core j = s.core j := rfl
@[simp] theorem onGroup_die_at (f : Group → Group) (j : Nat) : (s.onGroup k f).die j = s.die j := rfl
@[simp] theorem onGroup_tenant_at (f : Group → Group) (j : Nat) : (s.onGroup k f).tenant j = s.tenant j := rfl
@[simp] theorem onGroup_queue_at (f : Group → Group) (j : Nat) : (s.onGroup k f).queue j = s.queue j := rfl
@[simp] theorem onGroup_slice_at (f : Group → Group) (j : Nat) : (s.onGroup k f).slice j = s.slice j := rfl
@[simp] theorem onGroup_gen_at (f : Group → Group) (j : Nat) : (s.onGroup k f).gen j = s.gen j := rfl
@[simp] theorem onGroup_same (f : Group → Group) : lookup (s.onGroup k f).groups k = (lookup s.groups k).map f := lookup_updateKey_same _ k f
theorem onGroup_other (f : Group → Group) {j : Nat} (h : j ≠ k) : lookup (s.onGroup k f).groups j = lookup s.groups j := lookup_updateKey_other _ f h

/-! ## Launch -/

@[simp] theorem setLaunch_powered (v : Launch) : (s.setLaunch k v).powered = s.powered := rfl
@[simp] theorem setLaunch_mem (v : Launch) : (s.setLaunch k v).mem = s.mem := rfl
@[simp] theorem setLaunch_badLines (v : Launch) : (s.setLaunch k v).badLines = s.badLines := rfl
@[simp] theorem setLaunch_clk (v : Launch) : (s.setLaunch k v).clk = s.clk := rfl
@[simp] theorem setLaunch_agenda (v : Launch) : (s.setLaunch k v).agenda = s.agenda := rfl
@[simp] theorem setLaunch_cur (v : Launch) : (s.setLaunch k v).cur = s.cur := rfl
@[simp] theorem setLaunch_draw (v : Launch) : (s.setLaunch k v).draw = s.draw := rfl
@[simp] theorem setLaunch_fresh (v : Launch) : (s.setLaunch k v).fresh = s.fresh := rfl
@[simp] theorem setLaunch_msgs (v : Launch) : (s.setLaunch k v).msgs = s.msgs := rfl
@[simp] theorem setLaunch_msix (v : Launch) : (s.setLaunch k v).msix = s.msix := rfl
@[simp] theorem setLaunch_msixPend (v : Launch) : (s.setLaunch k v).msixPend = s.msixPend := rfl
@[simp] theorem setLaunch_sysOut (v : Launch) : (s.setLaunch k v).sysOut = s.sysOut := rfl
@[simp] theorem setLaunch_hostOut (v : Launch) : (s.setLaunch k v).hostOut = s.hostOut := rfl
@[simp] theorem setLaunch_tenants (v : Launch) : (s.setLaunch k v).tenants = s.tenants := rfl
@[simp] theorem setLaunch_queues (v : Launch) : (s.setLaunch k v).queues = s.queues := rfl
@[simp] theorem setLaunch_starts (v : Launch) : (s.setLaunch k v).starts = s.starts := rfl
@[simp] theorem setLaunch_gens (v : Launch) : (s.setLaunch k v).gens = s.gens := rfl
@[simp] theorem setLaunch_dies (v : Launch) : (s.setLaunch k v).dies = s.dies := rfl
@[simp] theorem setLaunch_cores (v : Launch) : (s.setLaunch k v).cores = s.cores := rfl
@[simp] theorem setLaunch_groups (v : Launch) : (s.setLaunch k v).groups = s.groups := rfl
@[simp] theorem setLaunch_cohorts (v : Launch) : (s.setLaunch k v).cohorts = s.cohorts := rfl
@[simp] theorem setLaunch_slices (v : Launch) : (s.setLaunch k v).slices = s.slices := rfl
@[simp] theorem setLaunch_link (v : Launch) : (s.setLaunch k v).link = s.link := rfl
@[simp] theorem setLaunch_anvil (v : Launch) : (s.setLaunch k v).anvil = s.anvil := rfl
@[simp] theorem setLaunch_core_at (v : Launch) (j : Nat) : (s.setLaunch k v).core j = s.core j := rfl
@[simp] theorem setLaunch_die_at (v : Launch) (j : Nat) : (s.setLaunch k v).die j = s.die j := rfl
@[simp] theorem setLaunch_tenant_at (v : Launch) (j : Nat) : (s.setLaunch k v).tenant j = s.tenant j := rfl
@[simp] theorem setLaunch_queue_at (v : Launch) (j : Nat) : (s.setLaunch k v).queue j = s.queue j := rfl
@[simp] theorem setLaunch_slice_at (v : Launch) (j : Nat) : (s.setLaunch k v).slice j = s.slice j := rfl
@[simp] theorem setLaunch_gen_at (v : Launch) (j : Nat) : (s.setLaunch k v).gen j = s.gen j := rfl
@[simp] theorem setLaunch_same (v : Launch) : lookup (s.setLaunch k v).launches k = some v := lookup_store_same _ _ v
theorem setLaunch_other (v : Launch) {j : Nat} (h : j ≠ k) : lookup (s.setLaunch k v).launches j = lookup s.launches j := lookup_store_other _ v h
@[simp] theorem onLaunch_powered (f : Launch → Launch) : (s.onLaunch k f).powered = s.powered := rfl
@[simp] theorem onLaunch_mem (f : Launch → Launch) : (s.onLaunch k f).mem = s.mem := rfl
@[simp] theorem onLaunch_badLines (f : Launch → Launch) : (s.onLaunch k f).badLines = s.badLines := rfl
@[simp] theorem onLaunch_clk (f : Launch → Launch) : (s.onLaunch k f).clk = s.clk := rfl
@[simp] theorem onLaunch_agenda (f : Launch → Launch) : (s.onLaunch k f).agenda = s.agenda := rfl
@[simp] theorem onLaunch_cur (f : Launch → Launch) : (s.onLaunch k f).cur = s.cur := rfl
@[simp] theorem onLaunch_draw (f : Launch → Launch) : (s.onLaunch k f).draw = s.draw := rfl
@[simp] theorem onLaunch_fresh (f : Launch → Launch) : (s.onLaunch k f).fresh = s.fresh := rfl
@[simp] theorem onLaunch_msgs (f : Launch → Launch) : (s.onLaunch k f).msgs = s.msgs := rfl
@[simp] theorem onLaunch_msix (f : Launch → Launch) : (s.onLaunch k f).msix = s.msix := rfl
@[simp] theorem onLaunch_msixPend (f : Launch → Launch) : (s.onLaunch k f).msixPend = s.msixPend := rfl
@[simp] theorem onLaunch_sysOut (f : Launch → Launch) : (s.onLaunch k f).sysOut = s.sysOut := rfl
@[simp] theorem onLaunch_hostOut (f : Launch → Launch) : (s.onLaunch k f).hostOut = s.hostOut := rfl
@[simp] theorem onLaunch_tenants (f : Launch → Launch) : (s.onLaunch k f).tenants = s.tenants := rfl
@[simp] theorem onLaunch_queues (f : Launch → Launch) : (s.onLaunch k f).queues = s.queues := rfl
@[simp] theorem onLaunch_starts (f : Launch → Launch) : (s.onLaunch k f).starts = s.starts := rfl
@[simp] theorem onLaunch_gens (f : Launch → Launch) : (s.onLaunch k f).gens = s.gens := rfl
@[simp] theorem onLaunch_dies (f : Launch → Launch) : (s.onLaunch k f).dies = s.dies := rfl
@[simp] theorem onLaunch_cores (f : Launch → Launch) : (s.onLaunch k f).cores = s.cores := rfl
@[simp] theorem onLaunch_groups (f : Launch → Launch) : (s.onLaunch k f).groups = s.groups := rfl
@[simp] theorem onLaunch_cohorts (f : Launch → Launch) : (s.onLaunch k f).cohorts = s.cohorts := rfl
@[simp] theorem onLaunch_slices (f : Launch → Launch) : (s.onLaunch k f).slices = s.slices := rfl
@[simp] theorem onLaunch_link (f : Launch → Launch) : (s.onLaunch k f).link = s.link := rfl
@[simp] theorem onLaunch_anvil (f : Launch → Launch) : (s.onLaunch k f).anvil = s.anvil := rfl
@[simp] theorem onLaunch_core_at (f : Launch → Launch) (j : Nat) : (s.onLaunch k f).core j = s.core j := rfl
@[simp] theorem onLaunch_die_at (f : Launch → Launch) (j : Nat) : (s.onLaunch k f).die j = s.die j := rfl
@[simp] theorem onLaunch_tenant_at (f : Launch → Launch) (j : Nat) : (s.onLaunch k f).tenant j = s.tenant j := rfl
@[simp] theorem onLaunch_queue_at (f : Launch → Launch) (j : Nat) : (s.onLaunch k f).queue j = s.queue j := rfl
@[simp] theorem onLaunch_slice_at (f : Launch → Launch) (j : Nat) : (s.onLaunch k f).slice j = s.slice j := rfl
@[simp] theorem onLaunch_gen_at (f : Launch → Launch) (j : Nat) : (s.onLaunch k f).gen j = s.gen j := rfl
@[simp] theorem onLaunch_same (f : Launch → Launch) : lookup (s.onLaunch k f).launches k = (lookup s.launches k).map f := lookup_updateKey_same _ k f
theorem onLaunch_other (f : Launch → Launch) {j : Nat} (h : j ≠ k) : lookup (s.onLaunch k f).launches j = lookup s.launches j := lookup_updateKey_other _ f h

end Sys2Proof.Machine.State

namespace Sys2Proof.Machine

/-! ## Reads of memory -/

/-- A read of memory depends on the bytes alone. -/
theorem readByte_of_mem {s t : State} (h : t.mem = s.mem) (a : Nat) : readByte t a = readByte s a := by
  simp [readByte, h]

theorem readMem_of_mem {s t : State} (h : t.mem = s.mem) (a n : Nat) : readMem t a n = readMem s a n := by
  simp [readMem, h]

end Sys2Proof.Machine
end

