-- ==== Sys2Proof/Laws/Issue.lean ====
section
/-! SUPPORT. What issuing an instruction does once its agent and its registers are ready, and what retiring it changes. -/

namespace Sys2Proof.Machine

/-! ## Counting -/

theorem countEvent_frame (s : State) (t code n : Nat) :
    countEvent s t code n = { s with tenants := (countEvent s t code n).tenants } := by
  unfold countEvent; split <;> rfl

theorem countEvent_tenant (s : State) (t code n k : Nat) :
    (countEvent s t code n).tenant k = { s.tenant k with caps := ((countEvent s t code n).tenant k).caps } := by
  unfold countEvent; split
  · rfl
  · by_cases h : k = t
    · subst h; simp
    · rw [State.onTenant_other _ _ _ h]

@[simp] theorem countEvent_mem (s : State) (t code n : Nat) : (countEvent s t code n).mem = s.mem := by
  rw [countEvent_frame]
@[simp] theorem countEvent_cohorts (s : State) (t code n : Nat) : (countEvent s t code n).cohorts = s.cohorts := by
  rw [countEvent_frame]
@[simp] theorem countEvent_groups (s : State) (t code n : Nat) : (countEvent s t code n).groups = s.groups := by
  rw [countEvent_frame]
@[simp] theorem countEvent_cores (s : State) (t code n : Nat) : (countEvent s t code n).cores = s.cores := by
  rw [countEvent_frame]
@[simp] theorem countEvent_launches (s : State) (t code n : Nat) : (countEvent s t code n).launches = s.launches := by
  rw [countEvent_frame]

/-! ## Scalar instructions -/

theorem lookup_of_ctx {s : State} {x : Ctx} (h : ctxOf s x.c = some x) : lookup s.cohorts x.c = some x.co := by
  unfold ctxOf at h
  split at h
  · cases h
  · rename_i co hl
    simp only [Option.map_eq_some_iff] at h
    obtain ⟨p, _, hp⟩ := h
    rw [hl, ← hp]

theorem group_of_ctx {s : State} {x : Ctx} (h : ctxOf s x.c = some x) : lookup s.groups x.co.grp = some x.g := by
  unfold ctxOf at h
  split at h
  · cases h
  · rename_i co hl
    simp only [Option.map_eq_some_iff] at h
    obtain ⟨p, hp, he⟩ := h
    have ec : x.co = co := by rw [← he]
    have eg : x.g = p.1 := by rw [← he]
    rw [ec, eg]
    unfold launchOf at hp
    split at hp
    · cases hp
    · rename_i g hg
      simp only [Option.map_eq_some_iff] at hp
      obtain ⟨q, _, hq⟩ := hp
      rw [hg, ← hq]

theorem issueIn_ready {s : State} {x : Ctx} {u : Use} (body : State → Ctx → SRes) (h : scalarReady x u = true) :
    issueIn s x u body = match body s x with
      | .done s ctl => retire s x u ctl
      | .wait s => s
      | .fault s f => scalarFault s x f := by
  simp only [scalarReady, Bool.and_eq_true, Bool.not_eq_true', Bool.and_eq_false_iff, Bool.or_eq_false_iff, Bool.or_eq_true,
    decide_eq_true_eq] at h
  obtain ⟨⟨⟨⟨⟨⟨h1, h2⟩, h3⟩, h4⟩, h5⟩, h6⟩, h7⟩ := h
  unfold issueIn
  have e2 : (x.co.ix == 0 && x.g.loader.due) = false := by rcases h2 with h | h <;> simp [h]
  have e3 : (x.co.ix == 0 && x.g.storer.due) = false := by rcases h2 with h | h <;> simp [h]
  have e5 : (!u.safe && decide (gapLimit x ≤ x.co.gap)) = false := by
    rcases h5 with h | h
    · simp [h]
    · have : ¬ gapLimit x ≤ x.co.gap := by omega
      simp [this]
  have e6 : (u.join && !(x.co.laneIdle && x.co.noErrorComes)) = false := by rcases h6 with h | h <;> simp [h]
  simp only [h1, e2, e3, h3, h4, e5, e6, h7, Bool.not_true, Bool.false_eq_true, Bool.or_self, if_false] <;> rfl

theorem issueS_ready {s : State} {x : Ctx} {u : Use} (body : State → Ctx → SRes) (hr : Runs s x)
    (h : scalarReady x u = true) :
    issueS s u body = .next (match body s x with
      | .done s ctl => retire s x u ctl
      | .wait s => s
      | .fault s f => scalarFault s x f) := by
  unfold issueS
  rw [hr.1]
  simp only [hr.2, issueIn_ready body h]

/-! ## Retiring -/

@[simp] theorem retire_mem (s : State) (x : Ctx) (u : Use) (ctl : Ctl) : (retire s x u ctl).mem = s.mem := by
  simp [retire]

@[simp] theorem retire_cohort (s : State) (x : Ctx) (u : Use) (ctl : Ctl) :
    lookup (retire s x u ctl).cohorts x.c = (lookup s.cohorts x.c).map (fun co => co.advance u ctl) := by
  simp [retire]

theorem retire_other (s : State) (x : Ctx) (u : Use) (ctl : Ctl) {k : Nat} (h : k ≠ x.c) :
    lookup (retire s x u ctl).cohorts k = lookup s.cohorts k := by
  simp only [retire, countEvent_cohorts]
  exact State.onCohort_other _ _ _ h

theorem retire_frame (s : State) (x : Ctx) (u : Use) (ctl : Ctl) :
    retire s x u ctl = { s with cohorts := (retire s x u ctl).cohorts, tenants := (retire s x u ctl).tenants } := by
  unfold retire
  rw [countEvent_frame]
  rfl

theorem retire_tenants (s : State) (x : Ctx) (u : Use) (ctl : Ctl) : SameTenants s (retire s x u ctl) := by
  intro k
  unfold retire
  have := countEvent_tenant (s.onCohort x.c (fun co => co.advance u ctl)) x.t 2 1 k
  simpa using this

/-- An instruction whose effect is on its own cohort alone. -/
theorem onlyCohort_retire {s : State} {x : Ctx} {u : Use} {ctl : Ctl} (f : Cohort → Cohort)
    (h : lookup s.cohorts x.c = some x.co) :
    OnlyCohort s (retire (s.onCohort x.c f) x u ctl) x.c ((f x.co).advance u ctl) := by
  refine ⟨?_, ?_, ?_, ?_, ?_⟩
  · simp [h]
  · intro k hk
    rw [retire_other _ _ _ _ hk, State.onCohort_other _ _ _ hk]
  · intro a
    exact readByte_of_mem (by simp) a
  · rw [retire_frame]; rfl
  · intro k
    simpa using retire_tenants (s.onCohort x.c f) x u ctl k

/-! ## Local effects -/

theorem retire_core (s : State) (x : Ctx) (u : Use) (ctl : Ctl) (k : Nat) : (retire s x u ctl).core k = s.core k := by
  rw [retire_frame]; rfl

theorem retire_groups (s : State) (x : Ctx) (u : Use) (ctl : Ctl) : (retire s x u ctl).groups = s.groups := by
  rw [retire_frame]

/-- Retiring adds to a local effect what Cohort.advance says and nothing else. -/
theorem onlyLocal_retire {s s' : State} {x : Ctx} {u : Use} {ctl : Ctl} {base : Cohort} {C : Core} {g : Group}
    (h : OnlyLocal s s' x base C g) : OnlyLocal s (retire s' x u ctl) x (base.advance u ctl) C g := by
  obtain ⟨h1, h2, h3, h4, h5, h6, h7, h8, h9⟩ := h
  refine ⟨?_, ?_, ?_, ?_, ?_, ?_, ?_, ?_, ?_⟩
  · simp [h1]
  · intro k hk; rw [retire_other _ _ _ _ hk, h2 k hk]
  · rw [retire_core, h3]
  · intro k hk; rw [retire_core, h4 k hk]
  · rw [retire_groups, h5]
  · intro k hk; rw [retire_groups, h6 k hk]
  · intro a
    rw [← h7 a]; exact readByte_of_mem (by simp) a
  · rw [retire_frame]
    rw [h8]
  · intro k
    rw [retire_tenants s' x u ctl k, h9 k]

/-- A change of the cohort that executes is a local effect. -/
theorem onlyLocal_onCohort {s : State} {x : Ctx} (h : ctxOf s x.c = some x) (f : Cohort → Cohort) :
    OnlyLocal s (s.onCohort x.c f) x (f x.co) (s.core x.core) x.g := by
  have hl := lookup_of_ctx h
  refine ⟨by simp [hl], fun k hk => State.onCohort_other _ _ _ hk, rfl, fun k _ => rfl, group_of_ctx (s := s) h, fun k _ => rfl,
    fun a => rfl, rfl, fun k => rfl⟩

/-! ## Registers -/

namespace Cohort

@[simp] theorem reg_setReg (co : Cohort) (n r : Nat) (v : Word) : (co.setReg n v).reg r = if r = n then v else co.reg r := by
  simp [setReg, reg, get_put]

@[simp] theorem reg_advance (co : Cohort) (u : Use) (ctl : Ctl) (r : Nat) : (co.advance u ctl).reg r = co.reg r := by
  cases ctl <;> rfl

/-- The number that a pair holds. -/
theorem pair_toNat (co : Cohort) (n : Nat) : (co.pair n).toNat = (co.reg n).toNat + 2 ^ 32 * (co.reg (n + 1)).toNat := by
  unfold pair
  rw [BitVec.toNat_append, ← Nat.shiftLeft_add_eq_or_of_lt (co.reg n).isLt, Nat.shiftLeft_eq]; omega

/-- SPC moves past the instruction, and the loops stay, where no loop ends. -/
theorem advance_seq_spc (co : Cohort) (u : Use) (h : noLoopEnd co.loops co.spc = true) :
    (co.advance u .seq).spc = co.spc + BitVec.ofNat 32 (4 * u.len) ∧ (co.advance u .seq).loops = co.loops := by
  simp only [noLoopEnd, Bool.and_eq_true, Bool.or_eq_true, beq_iff_eq, bne_iff_ne] at h
  obtain ⟨h0, h1⟩ := h
  have e0 : (co.loops.lc0 != 0 && co.loops.le0 == co.spc) = false := by
    rcases h0 with h | h <;> simp [h]
  have e1 : (co.loops.lc1 != 0 && co.loops.le1 == co.spc) = false := by
    rcases h1 with h | h <;> simp [h]
  simp only [advance, loopBack, e0, e1, Bool.false_and, Bool.false_eq_true, if_false, and_self]

end Cohort

/-- An instruction that transfers no control retires. -/
theorem moved_advance (base : Cohort) (u : Use) (hs : u.safe = false) : Moved base (base.advance u .seq) u.len :=
  ⟨by simp [Cohort.advance, hs], fun h => Cohort.advance_seq_spc base u h⟩

/-- A taken transfer retires. -/
theorem wentTo_taken (base : Cohort) (u : Use) (a : Word) (hs : u.safe = false) :
    WentTo base (base.advance u (.taken a)) a (leaveLoops base.loops a) := by
  simp [WentTo, Cohort.advance, hs]

/-- A transfer that ends no loop retires. -/
theorem wentTo_goto (base : Cohort) (u : Use) (a : Word) (hs : u.safe = false) :
    WentTo base (base.advance u (.goto a)) a base.loops := by
  simp [WentTo, Cohort.advance, hs]

/-- One register written, sequentially. -/
theorem wroteRegs_one (co : Cohort) (n : Nat) (v : Word) (u : Use) (hs : u.safe = false) :
    WroteRegs co ((co.setReg n v).advance u .seq) [(n, v)] u.len := by
  refine ⟨?_, ?_⟩
  · intro r
    by_cases h : r = n
    · subst h; simp
    · have : (n == r) = false := by simpa using fun e => h e.symm
      simp [h, List.find?, this]
  · exact moved_advance (co.setReg n v) u hs

end Sys2Proof.Machine
end

