-- ==== Sys2Proof/Laws/Memory.lean ====
section
/-! SUPPORT. What each operation that writes memory can change, and that memory keeps its canonical form through it. -/

namespace Sys2Proof.Machine

/-! ## Keeping the canonical form -/

/-- Memory is in canonical form afterwards where it was before. -/
abbrev KeepsWf (s t : State) : Prop := Memory.wf s.mem = true → Memory.wf t.mem = true

/-- All that a write of memory can change: the bytes and the lines with errors, what the slices hold and the answers to it, the
writes that leave the module, and the errors reported. -/
abbrev MemoryMoves (s t : State) : Prop :=
  t = { s with mem := t.mem, badLines := t.badLines, anvil := t.anvil, cores := t.cores, slices := t.slices, cohorts := t.cohorts,
               link := t.link, sysOut := t.sysOut }

theorem keepsWf_of_mem {s t : State} (h : t.mem = s.mem) : KeepsWf s t := fun w => by rw [h]; exact w
theorem keepsWf_trans {s t u : State} (h : KeepsWf s t) (k : KeepsWf t u) : KeepsWf s u := fun w => k (h w)
theorem keepsWf_foldl {β : Type} (f : State → β → State) (h : ∀ s b, KeepsWf s (f s b)) (l : List β) (s : State) : KeepsWf s (l.foldl f s) := by
  induction l generalizing s with
  | nil => exact id
  | cons b r ih => exact keepsWf_trans (h s b) (ih (f s b))

theorem memoryMoves_trans {s t u : State} (h : MemoryMoves s t) (k : MemoryMoves t u) : MemoryMoves s u := by
  rw [MemoryMoves] at *; rw [k, h]
theorem memoryMoves_foldl {β : Type} (f : State → β → State) (h : ∀ s b, MemoryMoves s (f s b)) (l : List β) (s : State) :
    MemoryMoves s (l.foldl f s) := by
  induction l generalizing s with
  | nil => rfl
  | cons b r ih => exact memoryMoves_trans (h s b) (ih (f s b))

/-! ## Errors and one write request -/

theorem addError_frame (s : State) (e : ErrorRec) :
    addError s e = { s with anvil := (addError s e).anvil, cores := (addError s e).cores } := by
  unfold addError; dsimp only; split <;> rfl
theorem memError_frame (s : State) (core t pa : Nat) :
    memError s core t pa = { s with anvil := (memError s core t pa).anvil, cores := (memError s core t pa).cores } := by
  unfold memError
  split
  · rfl
  · split <;> exact addError_frame s _
@[simp] theorem memError_mem (s : State) (core t pa : Nat) : (memError s core t pa).mem = s.mem := by rw [memError_frame]
theorem memoryMoves_memError (s : State) (core t pa : Nat) : MemoryMoves s (memError s core t pa) := by
  rw [MemoryMoves, memError_frame]

theorem memErrors_frame {β : Type} (s : State) (f : β → Nat) (core t : Nat) (l : List β) :
    l.foldl (fun s b => memError s core t (f b)) s =
      { s with anvil := (l.foldl (fun s b => memError s core t (f b)) s).anvil,
               cores := (l.foldl (fun s b => memError s core t (f b)) s).cores } := by
  induction l generalizing s with
  | nil => rfl
  | cons b r ih => rw [List.foldl_cons, ih, memError_frame]

theorem applyCells_frame (s : State) (core t : Nat) (cs : List Host.Cell) (mend : Bool) :
    applyCells s core t cs mend = { s with
      mem := writeCells s.mem cs, badLines := (applyCells s core t cs mend).badLines, anvil := (applyCells s core t cs mend).anvil,
      cores := (applyCells s core t cs mend).cores } := by
  unfold applyCells
  dsimp only
  rw [memErrors_frame s (fun l => l * 64)]
@[simp] theorem applyCells_mem (s : State) (core t : Nat) (cs : List Host.Cell) (mend : Bool) :
    (applyCells s core t cs mend).mem = writeCells s.mem cs := by
  rw [applyCells_frame]
theorem keepsWf_applyCells (s : State) (core t : Nat) (cs : List Host.Cell) (mend : Bool) : KeepsWf s (applyCells s core t cs mend) :=
  fun w => by rw [applyCells_mem]; exact wf_writeCells s.mem cs w
theorem memoryMoves_applyCells (s : State) (core t : Nat) (cs : List Host.Cell) (mend : Bool) :
    MemoryMoves s (applyCells s core t cs mend) := by
  rw [MemoryMoves, applyCells_frame]

theorem answerFuture_frame (s : State) (q : FutReq) (st : Nat) (v : Dword) :
    answerFuture s q st v = { s with cohorts := (answerFuture s q st v).cohorts, link := (answerFuture s q st v).link } := by
  unfold answerFuture; split <;> rfl
theorem failFuture_frame (s : State) (q : FutReq) :
    failFuture s q = { s with cohorts := (failFuture s q).cohorts, link := (failFuture s q).link } := by
  unfold failFuture; split <;> rfl
@[simp] theorem failFuture_mem (s : State) (q : FutReq) : (failFuture s q).mem = s.mem := by
  rw [failFuture_frame]
@[simp] theorem answerFuture_mem (s : State) (q : FutReq) (st : Nat) (v : Dword) : (answerFuture s q st v).mem = s.mem := by
  rw [answerFuture_frame]
/-- One held request answered, or ended with its error. -/
theorem wakeOne_frame (s : State) (k : Nat) (f : Slice → Slice) (b : Bool) (q : FutReq) (v : Dword) :
    (if b then failFuture (s.onSlice k f) q else answerFuture (s.onSlice k f) q 0 v) =
      { s with slices := (s.onSlice k f).slices,
               cohorts := (if b then failFuture (s.onSlice k f) q else answerFuture (s.onSlice k f) q 0 v).cohorts,
               link := (if b then failFuture (s.onSlice k f) q else answerFuture (s.onSlice k f) q 0 v).link } := by
  cases b
  · simp only [Bool.false_eq_true, if_false]; rw [answerFuture_frame]; rfl
  · simp only [if_true]; rw [failFuture_frame]; rfl
theorem wakeHeld_frame (s : State) (cs : List Host.Cell) :
    wakeHeld s cs = { s with slices := (wakeHeld s cs).slices, cohorts := (wakeHeld s cs).cohorts, link := (wakeHeld s cs).link } := by
  unfold wakeHeld
  generalize filledBy s cs = l
  induction l generalizing s with
  | nil => rfl
  | cons p r ih =>
    rw [List.foldl_cons, ih]
    dsimp only
    rw [wakeOne_frame]
@[simp] theorem wakeHeld_mem (s : State) (cs : List Host.Cell) : (wakeHeld s cs).mem = s.mem := by rw [wakeHeld_frame]

theorem leaves_frame (s : State) (t pa n : Nat) (cs : List Host.Cell) :
    leaves s t pa n cs = { s with sysOut := (leaves s t pa n cs).sysOut, link := (leaves s t pa n cs).link } := by
  unfold leaves; split <;> rfl
@[simp] theorem leaves_mem (s : State) (t pa n : Nat) (cs : List Host.Cell) : (leaves s t pa n cs).mem = s.mem := by rw [leaves_frame]

/-- All that a request that leaves the module can change: the requests that have left it (R452, R454). -/
abbrev Asked (s t : State) : Prop := t = { s with sysOut := t.sysOut, link := { s.link with out := t.link.out } }

theorem asked_refl (s : State) : Asked s s := rfl
theorem asked_trans {s t u : State} (h : Asked s t) (k : Asked t u) : Asked s u := by
  rw [Asked] at *; rw [k, h]
theorem asked_foldl {β : Type} (f : State → β → State) (h : ∀ s b, Asked s (f s b)) (l : List β) (s : State) : Asked s (l.foldl f s) := by
  induction l generalizing s with
  | nil => rfl
  | cons b r ih => exact asked_trans (h s b) (ih (f s b))
theorem asked_leaves (s : State) (t pa n : Nat) (cs : List Host.Cell) : Asked s (leaves s t pa n cs) := by
  unfold leaves; split <;> rfl
theorem asked_walkAsks (s : State) (die t va : Nat) : Asked s (walkAsks s die t va) :=
  asked_foldl _ (fun s ea => by
    split
    · rfl
    · exact asked_leaves s t ea 8 []) _ s
theorem asked_walked (s : State) (core t va : Nat) : Asked s (walked s core t va) := by
  unfold walked
  split
  · rfl
  · exact asked_walkAsks _ _ _ _
theorem asked_frontWalks (s : State) (t va n : Nat) : Asked s (frontWalks s t va n) :=
  asked_foldl _ (fun s p => by
    unfold frontWalked
    split
    · rfl
    · exact asked_walkAsks _ _ _ _) _ s
theorem asked_frontAsk (s : State) (t va n : Nat) : Asked s (frontAsk s t va n) := by
  unfold frontAsk
  dsimp only
  split
  · exact asked_frontWalks s t va n
  · refine asked_trans (asked_frontWalks s t va n)
      (asked_foldl (fun (s : State) (p : Nat × Nat) => if cutOff s p.1 then s else leaves s t p.1 p.2 []) (fun s p => ?_) _ _)
    split
    · rfl
    · exact asked_leaves s t _ _ []
theorem asked_mem {s t : State} (h : Asked s t) : t.mem = s.mem := by rw [Asked] at h; rw [h]
theorem memoryMoves_asked {s t : State} (h : Asked s t) : MemoryMoves s t := by rw [Asked] at h; rw [MemoryMoves, h]

/-- A write at its target: its bytes, and what a write can change besides. -/
theorem targetWrite_mem (s : State) (core t : Nat) (cs : List Host.Cell) (mend : Bool) :
    (targetWrite s core t cs mend).mem = writeCells s.mem cs := by
  unfold targetWrite
  split
  · rfl
  · dsimp only
    split <;> simp
theorem memoryMoves_targetWrite (s : State) (core t : Nat) (cs : List Host.Cell) (mend : Bool) :
    MemoryMoves s (targetWrite s core t cs mend) := by
  unfold targetWrite
  split
  · rfl
  next c r =>
    dsimp only
    refine memoryMoves_trans (memoryMoves_applyCells s core t (c :: r) mend) ?_
    split
    · rw [MemoryMoves, wakeHeld_frame]
    · rw [MemoryMoves, leaves_frame]
theorem keepsWf_targetWrite (s : State) (core t : Nat) (cs : List Host.Cell) (mend : Bool) : KeepsWf s (targetWrite s core t cs mend) :=
  fun w => by rw [targetWrite_mem]; exact wf_writeCells s.mem cs w

/-! ## What the front end, a graph scheduler and Anvil write -/

theorem memoryMoves_frontWrite {s u : State} {t va : Nat} {b : List Byte} {mend : Bool} (h : frontWrite s t va b mend = .ok u) :
    MemoryMoves s u := by
  unfold frontWrite at h
  split at h
  · cases h
  · split at h
    · cases h
    · cases h
      exact memoryMoves_trans (memoryMoves_asked (asked_frontWalks _ _ _ _))
        (memoryMoves_foldl _ (fun s cs => memoryMoves_targetWrite s noCore t cs mend) _ _)
theorem keepsWf_frontWrite {s u : State} {t va : Nat} {b : List Byte} {mend : Bool} (h : frontWrite s t va b mend = .ok u) :
    KeepsWf s u := by
  unfold frontWrite at h
  split at h
  · cases h
  · split at h
    · cases h
    · cases h
      exact keepsWf_trans (keepsWf_of_mem (asked_mem (asked_frontWalks _ _ _ _)))
        (keepsWf_foldl _ (fun s cs => keepsWf_targetWrite s noCore t cs mend) _ _)
theorem memoryMoves_frontFailed (s : State) (t va n : Nat) (x : XErr) : MemoryMoves s (frontFailed s t va n x) := by
  refine memoryMoves_trans (memoryMoves_asked (asked_frontWalks s t va n)) ?_
  unfold frontFailed reportAccess
  split
  · split
    · rfl
    · exact memoryMoves_memError _ _ _ _
  · rfl
theorem frontFailed_mem (s : State) (t va n : Nat) (x : XErr) : (frontFailed s t va n x).mem = s.mem := by
  rw [← asked_mem (asked_frontWalks s t va n)]
  unfold frontFailed reportAccess
  split
  · split
    · rfl
    · exact memError_mem _ _ _ _
  · rfl
theorem memoryMoves_frontPut (s : State) (t va : Nat) (b : List Byte) : MemoryMoves s (frontPut s t va b) := by
  unfold frontPut
  split
  · next h => exact memoryMoves_frontWrite h
  · exact memoryMoves_frontFailed _ _ _ _ _
theorem keepsWf_frontPut (s : State) (t va : Nat) (b : List Byte) : KeepsWf s (frontPut s t va b) := by
  unfold frontPut
  split
  · next h => exact keepsWf_frontWrite h
  · exact keepsWf_of_mem (frontFailed_mem _ _ _ _ _)

theorem memoryMoves_writeArena (s : State) (l : Launch) (page off : Nat) (b : List Byte) : MemoryMoves s (writeArena s l page off b) :=
  memoryMoves_foldl _ (fun s cs => memoryMoves_targetWrite s noCore l.t cs false) _ s
theorem keepsWf_writeArena (s : State) (l : Launch) (page off : Nat) (b : List Byte) : KeepsWf s (writeArena s l page off b) :=
  keepsWf_foldl _ (fun s cs => keepsWf_targetWrite s noCore l.t cs false) _ s
theorem keepLine_frame (s : State) (line : Nat) : keepLine s line = { s with slices := (keepLine s line).slices } := by
  unfold keepLine
  dsimp only
  split <;> rfl
theorem memoryMoves_keepLines (ls : List Nat) (f : Nat → Nat) (s : State) : MemoryMoves s (ls.foldl (fun s i => keepLine s (f i)) s) :=
  memoryMoves_foldl _ (fun s i => by rw [MemoryMoves, keepLine_frame]) ls s
theorem memoryMoves_writePage (s : State) (l : Launch) (page off : Nat) (b : List Byte) : MemoryMoves s (writePage s l page off b) :=
  memoryMoves_trans (memoryMoves_keepLines _ _ s) (memoryMoves_writeArena _ l page off b)
theorem keepsWf_writePage (s : State) (l : Launch) (page off : Nat) (b : List Byte) : KeepsWf s (writePage s l page off b) :=
  keepsWf_trans (keepsWf_foldl _ (fun s i => keepsWf_of_mem (by rw [keepLine_frame])) _ s) (keepsWf_writeArena _ l page off b)
theorem keepsWf_dropLine (s : State) (line : Nat) : KeepsWf s (dropLine s line) := by
  unfold dropLine
  dsimp only
  split
  · exact id
  · exact fun w => wf_writeCells _ _ w
theorem keepsWf_dropPage (s : State) (l : Launch) (page : Nat) : KeepsWf s (dropPage s l page) :=
  keepsWf_foldl _ (fun s _ => keepsWf_dropLine s _) _ s
theorem keepsWf_writePieces (s : State) (t : Nat) (ps : List (Nat × Nat)) (b : List Byte) : KeepsWf s (writePieces s t ps b) := by
  unfold writePieces
  split
  · exact id
  · exact keepsWf_foldl _ (fun s cs => keepsWf_targetWrite s noCore t cs false) _ s

theorem memoryMoves_writeCrec (s : State) (t va : Nat) (b : List Byte) : MemoryMoves s (writeCrec s t va b) := by
  unfold writeCrec
  split
  · rfl
  · exact memoryMoves_frontPut _ _ _ _
theorem keepsWf_writeCrec (s : State) (t va : Nat) (b : List Byte) : KeepsWf s (writeCrec s t va b) := by
  unfold writeCrec
  split
  · exact id
  · exact keepsWf_frontPut _ _ _ _

theorem busWrite_frame (s : State) (a : Nat) (b : List Byte) :
    busWrite s a b = { s with
      mem := writeCells s.mem (cellsOf (busPa a) b), badLines := (busWrite s a b).badLines, anvil := (busWrite s a b).anvil,
      cores := (busWrite s a b).cores, sysOut := s.sysOut ++ [⟨0, a, b.length, cellsOf (busPa a) b⟩] } := by
  unfold busWrite
  dsimp only
  rw [applyCells_frame]
theorem keepsWf_busWrite (s : State) (a : Nat) (b : List Byte) : KeepsWf s (busWrite s a b) :=
  fun w => by rw [busWrite_frame]; exact wf_writeCells s.mem _ w

theorem keepsWf_worldWrites (s : State) (pa : Nat) (b : List Byte) : KeepsWf s (worldWrites s pa b) := fun w => wf_writeCells s.mem _ w
theorem keepsWf_moduleFresh (s : State) (on : Bool) : KeepsWf s (moduleFresh s on) := fun w => wf_filter s.mem _ w

/-! ## Requests performed at their targets -/

@[simp] theorem onPending_mem (s : State) (c tag : Nat) (f : Pending → Pending) : (onPending s c tag f).mem = s.mem := rfl
@[simp] theorem lostWrite_mem (s : State) (t : Nat) : (lostWrite s t).mem = s.mem := rfl

theorem keepsWf_traceRecord (s : State) (t kind bit : Nat) (w : TraceWho) (data : Nat) : KeepsWf s (traceRecord s t kind bit w data) := by
  unfold traceRecord
  dsimp only
  split
  · exact id
  · split
    · exact id
    · split
      · exact keepsWf_of_mem (frontFailed_mem _ _ _ _ _)
      · next h =>
        have k := keepsWf_frontWrite h
        split
        · exact id
        · exact fun w => k w
theorem countEvent_keepsMem (s : State) (t code n : Nat) : (countEvent s t code n).mem = s.mem := by
  unfold countEvent; split <;> rfl
theorem keepsWf_fillTrace (s : State) (r : StoreReq) (qs : List FutReq) : KeepsWf s (fillTrace s r qs) := by
  unfold fillTrace
  split
  · exact keepsWf_traceRecord _ _ _ _ _ _
  · exact id
theorem keepsWf_runStore (s : State) (core : Nat) (r : StoreReq) : KeepsWf s (runStore s core r) := by
  unfold runStore
  split
  · exact id
  · split
    · exact id
    · split
      · exact keepsWf_of_mem (memError_mem _ _ _ _)
      · dsimp only
        split
        · exact keepsWf_trans (keepsWf_targetWrite _ _ _ _ _) (keepsWf_fillTrace _ _ _)
        · exact keepsWf_targetWrite _ _ _ _ _
theorem keepsWf_runAtom (s : State) (core : Nat) (q : AtomReq) : KeepsWf s (runAtom s core q) := by
  unfold runAtom
  dsimp only
  generalize (if q.w64 = true then 8 else 4) = n
  split
  · exact keepsWf_of_mem (by simp)
  · split
    · exact id
    · exact fun w => keepsWf_targetWrite _ _ _ _ _ w
theorem keepsWf_runRed (s : State) (core : Nat) (q : RedReq) : KeepsWf s (runRed s core q) := by
  unfold runRed
  dsimp only
  generalize (if q.w64 = true then 8 else 4) = n
  split
  · exact keepsWf_of_mem (by simp)
  · split
    · exact id
    · exact fun w => keepsWf_targetWrite _ _ _ _ _ w
theorem keepsWf_runRedo (s : State) (core t : Nat) (e : RedoEntry) : KeepsWf s (runRedo s core t e) := by
  unfold runRedo
  dsimp only
  split
  · exact id
  · split
    · exact fun w => keepsWf_targetWrite _ _ _ _ _ w
    · exact id
@[simp] theorem heldFrom_mem (s : State) (q : FutReq) : (heldFrom s q).mem = s.mem := by
  unfold heldFrom; split <;> rfl
theorem runFut_mem (s : State) (core t : Nat) (q : FutReq) : (runFut s core t q).mem = s.mem := by
  unfold runFut
  split
  · simp
  · split
    · simp
    · have h : (if q.away = true then s else leaves s t q.pa 16 []).mem = s.mem := by split <;> simp
      dsimp only
      generalize (if q.away = true then s else leaves s t q.pa 16 []) = u at h ⊢
      split
      · rw [answerFuture_mem, h]
      · split
        · split
          · exact (heldFrom_mem u q).trans h
          · rw [countEvent_keepsMem, answerFuture_mem, h]
        · exact (heldFrom_mem u q).trans h
theorem keepsWf_entryLost (core t slot : Nat) (s : State) (pa : Nat) : KeepsWf s (entryLost core t slot s pa) :=
  keepsWf_of_mem (by simp [entryLost])
@[simp] theorem ranked_mem (s : State) (es : List RedoEntry) : (ranked s es).1.mem = s.mem := rfl
theorem keepsWf_applyEntry (core t slot : Nat) (s : State) (e : RedoEntry) : KeepsWf s (applyEntry core t slot s e) := by
  unfold applyEntry
  split
  · exact keepsWf_entryLost _ _ _ _ _
  · exact keepsWf_targetWrite _ _ _ _ _
theorem keepsWf_flushSlice (s : State) (sl slot : Nat) : KeepsWf s (flushSlice s sl slot) := by
  unfold flushSlice
  split
  · exact id
  next l _ =>
    intro w
    simp only [State.onLaunch_mem, State.onTenant_mem, State.onSlice_mem]
    refine keepsWf_foldl (fun s (e : Nat × RedoEntry) => applyEntry noCore l.t slot s e.2)
      (fun s e => keepsWf_applyEntry noCore l.t slot s e.2) _ _ ?_
    rw [ranked_mem]
    exact keepsWf_foldl _ (fun s p => keepsWf_entryLost noCore l.t slot s _) _ s w

/-! ## Draining -/

theorem keepsWf_settleWhere (s : State) (core : Nat) (p : StoreReq → Bool) : KeepsWf s (settleWhere s core p) :=
  fun w => keepsWf_foldl _ (fun s r => keepsWf_runStore s core r) _ _ w
theorem keepsWf_settleStores (s : State) (core : Nat) (pas : List Nat) : KeepsWf s (settleStores s core pas) :=
  keepsWf_settleWhere s core _
theorem keepsWf_settleNear (s : State) (core c : Nat) (pas : List Nat) : KeepsWf s (settleNear s core c pas) := keepsWf_settleWhere s core _
theorem keepsWf_runSent (core t : Nat) (s : State) (x : Sent) : KeepsWf s (runSent core t s x) := by
  cases x with
  | store r => exact id
  | atom q => exact keepsWf_trans (keepsWf_settleNear _ _ _ _) (keepsWf_runAtom _ _ _)
  | red q => exact keepsWf_trans (keepsWf_settleNear _ _ _ _) (keepsWf_runRed _ _ _)
  | fut q =>
    unfold runSent
    dsimp only
    split
    · exact id
    · exact keepsWf_trans (keepsWf_settleNear _ _ _ _) (keepsWf_of_mem (runFut_mem _ _ _ _))
theorem keepsWf_settleOwn (s : State) (core t c n : Nat) (pas : List Nat) : KeepsWf s (settleOwn s core t c n pas) := by
  unfold settleOwn
  dsimp only
  split
  · exact id
  · exact fun w => keepsWf_foldl (runSent core t) (keepsWf_runSent core t) _ _ w
theorem keepsWf_beforeRead (s : State) (core t c : Nat) (lane : Bool) (mt : Nat) (pas : List Nat) :
    KeepsWf s (beforeRead s core t c lane mt pas) := by
  unfold beforeRead
  dsimp only
  split
  · exact keepsWf_trans (keepsWf_settleOwn _ _ _ _ _ _) (keepsWf_settleWhere _ _ _)
  · exact id
theorem keepsWf_drainRedos (s : State) (core t c : Nat) : KeepsWf s (drainRedos s core t c) := by
  unfold drainRedos
  dsimp only
  split
  · exact id
  · exact fun w => keepsWf_foldl (fun s q => runRedo s core t q) (fun s q => keepsWf_runRedo s core t q) _ _ w
theorem keepsWf_drainStores (s : State) (core : Nat) : KeepsWf s (drainStores s core) :=
  fun w => keepsWf_foldl _ (fun s r => keepsWf_runStore s core r) _ _ w
theorem keepsWf_release {s u : State} {core t c scope : Nat} {fifo : Bool} (h : release s core t c scope fifo = some u) :
    KeepsWf s u := by
  unfold release at h
  dsimp only at h
  generalize (if (scope == 0 || (fifo && scope == 1)) = true then lastOther (s.core core) c else (s.core core).seq) = n at h
  have d : ∀ n, KeepsWf s (drainRedos (settleOwn s core t c n) core t c) :=
    fun n => keepsWf_trans (keepsWf_settleOwn _ _ _ _ _ _) (keepsWf_drainRedos _ _ _ _)
  split at h
  · cases h
  · split at h
    · cases h; exact d _
    · split at h
      · cases h
      · cases h; exact keepsWf_trans (d _) (keepsWf_drainStores _ _)
theorem cancelFutures_mem (s : State) (core t c : Nat) : (cancelFutures s core t c).mem = s.mem := by
  have h : ∀ (l : List FutReq) (s : State), (l.foldl (fun s q => answerFuture s q 1 0) s).mem = s.mem := by
    intro l
    induction l with
    | nil => exact fun _ => rfl
    | cons q r ih => intro s; rw [List.foldl_cons, ih, answerFuture_mem]
  unfold cancelFutures
  dsimp only
  rw [countEvent_keepsMem, h]
  rfl
theorem endFutures_mem (s : State) (core t c : Nat) : (endFutures s core t c).mem = s.mem := by
  have h : ∀ (l : List FutReq) (s : State), (l.foldl (fun s q => runFut s core t q) s).mem = s.mem := by
    intro l
    induction l with
    | nil => exact fun _ => rfl
    | cons q r ih => intro s; rw [List.foldl_cons, ih, runFut_mem]
  unfold endFutures
  dsimp only
  rw [cancelFutures_mem, h]
  rfl

end Sys2Proof.Machine
end

