-- ==== Sys2Proof/Tests/Slice0.lean ====
section
/-! SUPPORT. Tests: words that the spec writes out, terms that each check of well-formedness refuses, the spec's worked
examples, and for each statement states and operands that meet its hypotheses. -/

open Sys2Proof Sys2Proof.Machine Sys2Proof.Slice0

namespace Sys2Proof.Tests

set_option Elab.async false

/-! ## Words that the spec writes out -/

/-- The program of chapter 20, with the words that its listing gives. -/
def listing : List (Nat × Instr) :=
  [(0x18980005, .li 19 5), (0x18900003, .li 18 3), (0x1880000A, .li 16 10), (0x18880016, .li 17 22),
   (0x79240001, .loop 1 9 1), (0x04A283E8, .addi 20 20 1000), (0x784C000B, .loop 0 19 11), (0x79480009, .loop 1 18 9),
   (0x86000000, .safe 0), (0x00600505, .getr 12 10), (0x00680685, .getr 13 13), (0x02718802, .mul 14 12 16),
   (0x0271C680, .add 14 14 13), (0x68722004, .beq 14 17 4), (0x02AA8700, .add 21 20 14), (0x86000001, .safe 1),
   (0x04A2A000, .addi 20 21 0), (0x00000000, .nop), (0x42608000, .ldB64 12 4 0), (0x4CA18000, .stB32 20 12 0),
   (0x00000001, .done), (0x64000000, .ret)]

theorem test_listing_decodes : listing.all (fun p => decodeTableWord 32 p.1 == some p.2) = true := by decide

/-- The words of the examples of chapters 10, 11 and 15. -/
theorem test_example_words_decode :
    [(0x78280002, Instr.loop 0 10 2), (0x02186280, .add 3 3 5), (0x0430DFFF, .addi 6 6 (-1)), (0x6A085FFD, .bne 1 2 (-3)),
     (0x00A00085, .getr 20 1), (0x00006006, .setr 3 0), (0x00186004, .fence 3 3), (0x4C188010, .stB32 3 4 16),
     (0x42309FF8, .ldB64 6 4 (-8)), (0xAA000000, .mfence), (0xA6B00000, .mcommit 22), (0xA802C000, .mwait 22)].all
      (fun p => decodeTableWord 32 p.1 == some p.2) = true := by decide

/-- The words with an extension of chapters 10 and 15: LANE s12 with index 40, the MMA, LIX s8. -/
theorem test_example_extensions_decode :
    [(0x0000002880018007, Instr.lane 12 7 40), (0x24101000A0A20900, .mma 20 16 18 0x24101000), (0x0000FFFF1A400000, .lix 8 0xFFFF)].all
      (fun p => decodeTableWord 64 p.1 == some p.2) = true := by decide

/-- The lane words of chapters 12, 13 and 14. -/
theorem test_example_lane_words_decode :
    [(0x0D802004040300E800000000, Instr.vbool ⟨false, 0, 4, 1, 2, 3, 0, 0, 0, 0xE8, 0⟩),
     (0x300028040405000000000000, .vshuf ⟨false, 0, 5, 1, 2, 5, 0, 0, 0, 0, 0⟩),
     (0x3298A0200000000200000000, .vredx ⟨false, 3, 20, 8, 0, 0, 0, 0, 0, 2, 0⟩),
     (0x1ED8A020001E021D00000000, .vcvt ⟨false, 11, 20, 8, 0, 30, 0, 0, 0, 0x21D, 0⟩),
     (0xC008500E080001A800000040, .vld ⟨true, 1, 10, 3, 260, 0, 0, 0, 0, 0x1A8, 0x40⟩)].all
      (fun p => decodeTableWord 96 p.1 == some p.2) = true := by decide

/-- The words of chapter 5, and words of RV64 written out by its formats: ADDI a0, a0, 10; C.ADDI a0, 1. -/
theorem test_loader_words_decode :
    [(0x0005850B, Instr.tld 10 11), (0x0457130B, .tbarWait 6 14 5), (0x00A50513, .riscvInstruction (.imm .addi 10 10 10) false)].all
      (fun p => decodeTableWord 32 p.1 == some p.2) = true ∧
    decodeTableWord 16 0x0505 = some (.riscvInstruction (.imm .addi 10 10 1) true) := by decide

/-- R293, R336: SHLI s3, s3, 40, VREDX with RED 6, VREDX on I32 with a rounding mode, and a VXS with D[7:6] = 1 are refused. -/
theorem test_reserved_words_are_refused :
    decodeTableWord 32 0x0C186008 = some (.shli 3 3 8) ∧ (decodeScalar [0x0C186028]).toOption = none ∧
    decodeTableWord 96 0x3298A0200000006200000000 = none ∧ decodeTableWord 96 0x3288A0200000000200000000 = none ∧
    decodeTableWord 96 0x3382A0240000000100000000 = none := by decide

/-! ## Well-formedness: an ill-formed term for each check -/

/-- A lane word of a type, a destination, three sources and MOD. -/
def lw (ty : BitVec 4) (d : BitVec 8) (a b c : BitVec 9) (md : BitVec 10) : LaneWord := ⟨false, ty, d, a, b, c, 0, 0, 0, md, 0⟩

theorem test_ill_formed_scalar_terms_are_refused :
    [Instr.fence 6 1, .fence 0 0, .fence 0 4, .getr 0 22, .setr 0 22, .add64 1 0 0, .add64 0 1 0, .add64 0 0 1, .sub64 1 0 0,
     .sub64 0 1 0, .sub64 0 0 1, .adda 1 0 0, .adda 0 1 0, .ldB32 0 1 0, .ldB64 1 0 0, .ldB64 0 1 0, .ldN8 0 1 0, .ldI8 0 1 0,
     .ldN16 0 1 0, .ldI16 0 1 0, .stB32 0 1 0, .stB64 1 0 0, .stB64 0 1 0, .stB8 0 1 0, .stB16 0 1 0, .atom 0 1 0 false 0,
     .atom 0 0 0 false 15, .atom 1 0 0 true 0, .atom 0 0 1 true 0, .ldsp 0 0 0 6, .ldsp 1 0 0 5, .stsp 0 0 0 4, .stsp 1 0 0 3,
     .ldo 0 1 0 false 1, .ldo 0 0 6 false 1, .ldo 0 0 0 false 2, .ldo 1 0 0 true 1, .sto 0 1 0 false 2, .sto 0 0 6 false 2,
     .sto 0 0 0 false 1, .sto 1 0 0 true 2, .loop 0 0 0, .btab 1 0 [0], .btab 0 0 [], .spawn 0 1 0 0, .spawn 0 0 0 6,
     .barArrive 0 0 0, .barArrive 0 0 6, .barDrop 0 0 0, .barDrop 0 0 6, .safe 1023, .mma 1 0 0 0, .mma 0 1 0 0, .mma 0 0 1 0,
     .mmas 1 0 0 0, .mmas 0 1 0 0, .mmas 0 0 1 0, .mres 1 0 0 0 0, .mres 0 1 0 0 0, .mres 0 0 1 0 0, .mres 0 0 0 6 0,
     .mstat 0 4].all (fun i => !i.wellFormed) = true := by decide

theorem test_ill_formed_lane_terms_are_refused :
    [Instr.vnop (lw 1 0 0 0 0 0), .vnop (lw 0 1 0 0 0 0), .vnop (lw 0 0 1 0 0 0), .vadd (lw 3 0 0 0 0 0), .vadd (lw 1 0 276 0 0 0),
     .vadd (lw 1 0 0 0 1 0), .vadd ⟨false, 1, 0, 0, 0, 0, 3, 0, 0, 0, 0⟩, .vadd ⟨false, 1, 0, 0, 0, 0, 0, 0, 1, 0, 0⟩,
     .vadd ⟨false, 1, 0, 0, 0, 0, 0, 0, 0, 0, 5⟩, .vadd (lw 1 0 0 0 0 1), .vmul (lw 0 0 0 0 0 1), .vmulh (lw 0 0 0 0 0 0),
     .vfadd (lw 1 0 0 0 0 0), .vfadd (lw 3 0 0 0 0 5), .vcmp (lw 1 0 0 0 0 6), .vcmp (lw 0 0 0 0 0 2), .vcvt (lw 3 0 0 0 0 0x18),
     .vcvt (lw 1 0 0 0 0 0x10), .vcvt (lw 3 0 0 0 0 0x228), .vpack (lw 0 0 256 0 0 0), .vpack (lw 0 0 0 0 0 3), .vunpk (lw 0 0 0 0 0 0x40),
     .vvote (lw 0 15 0 0 0 0), .vvote (lw 0 64 0 0 0 0), .vredx (lw 3 16 0 0 0 0x60), .vredx (lw 1 16 0 0 0 2), .vxs (lw 0 17 0 0 0 3),
     .vmatch (lw 0 0 257 0 0 1), .vld (lw 0 0 0 0 0 0x380), .vld (lw 0 0 256 0 0 0), .vld (lw 0 0 0 0 0 0x50), .vld (lw 0 0 0 0 0 1),
     .vld (lw 0 0 0 256 0 0), .vst (lw 0 0 0 0 0 2), .vst (lw 0 0 0 0 0 1), .vatom (lw 3 0 0 0 0 0x20), .vatom (lw 0 0 0 0 0 0x300),
     .vred (lw 0 0 0 0 0 0x180), .vredo (lw 0 0 0 0 0 0), .vldf (lw 0 0 0 0 0 0x20), .vstf (lw 0 0 0 0 0 0x280),
     .vspawn (lw 0 0 0 0 0 1), .vspawn (lw 0 0 0 0 0 12), .vldt (lw 0 0 0 0 0 0x300), .vldb (lw 0 0 0 0 0 0), .vstb (lw 0 0 0 0 0 0x1A0),
     .vpref (lw 0 0 0 0 0 0x280)].all (fun i => !i.wellFormed) = true := by decide

theorem test_ill_formed_loader_terms_and_events_are_refused :
    [Instr.riscvInstruction (.shift .slliw 1 1 32) false, .riscvInstruction (.load .d true 1 1 0) false,
     .riscvInstruction (.alu .mul 1 2 3) true, .tileCommandStart 0 false 8, .tileRowComplete 0 false 0 65536 false, .tileCommandComplete 0 false 8,
     .tileCommandStop 0 false 8 false, .matrixStep 512, .pageWalk 512 0 0 .read, .pageWalk 0 32 0 .read, .faultRingPost 32 0, .txinvNone 0 0,
     .txinvNone 0 1, .homeSliceWrite 512 0, .orderedFlush 320 0, .orderedFlush 0 64, .errorDetect ⟨0, 1, 0, 0, none, 0, 0, 0⟩, .errorDetect ⟨10, 1, 0, 0, none, 0, 0, 0⟩,
     .doorbell 2112 0, .launchDestroy 33 0, .recordArrival 4 0, .fDead 64, .watchdogExpiry 6, .linkRetrain 36, .remoteCreditReturn 1024 0 0,
     .remoteCreditReturn 0 0 8, .registerWrite 33 0 8 0, .registerWrite 0 0 2 0, .dieResetEnd 4].all (fun i => !i.wellFormed) = true := by decide

/-! ## States to run one instruction in -/

/-- A node with 256 vector registers, a scratchpad of 8 KiB, 8 KiB each of WBUF, ABUF and CBUF, four safe points whose table lies at
0x800, SGAP 100, HWM 100, CAP 100, and records of 8 bytes to itself, to depth 10. -/
def node0 : NodeCopy :=
  ⟨BitVec.ofNat 1024 (31 * 2 ^ 671 + 31 * 2 ^ 676 + 8 * 2 ^ 640 + 2 * 2 ^ 649 + 2 * 2 ^ 657 + 2 * 2 ^ 664 + 4 * 2 ^ 732 +
    0x800 * 2 ^ 256 + 100 * 2 ^ 544 + 99 * 2 ^ 612 + 99 * 2 ^ 592 + 2 ^ 696 + 10 * 2 ^ 697), [], [], [], 0⟩

/-- Its launch: the private arena at 0x8000, P = 64. -/
def launch0 : Launch := { t := 0, desc := BitVec.ofNat 512 (64 * 2 ^ 300 + 0x8000 * 2 ^ 64), nodes := [node0] }

/-- Its group on core 0. -/
def group0 : Group := { slot := 0, node := 0, core := 0 }

/-- The page of 64 KiB at address 0 of tenant 0, readable, writable and executable, at 0x10000. -/
def page0 : TlbEntry := ⟨0, 0, 16, 0x10000, 0x1F, true⟩

/-- A core that holds its translation. -/
def core0 : Core := { tlb := [page0] }

/-- The state that has one cohort, number 0, on core 0, which executes. -/
def mk (co : Cohort) (g : Group := group0) (C : Core := core0) : State :=
  { State.reset with cur := .cohort 0, launches := [(0, launch0)], groups := [(0, g)], cohorts := [(0, co)], cores := [(0, C)] }

/-- That cohort in its place. -/
def cx (co : Cohort) (g : Group := group0) : Ctx := ⟨0, co, g, launch0⟩

/-- A cohort at SPC 0x100 with scalar registers. -/
def co0 (regs : List (Nat × Word)) : Cohort := { grp := 0, ix := 0, nv := 256, spc := 0x100, s := regs }

/-- What an instruction makes of the cohort, and of its group. -/
def after (i : Instr) (s : State) : Option Cohort := match exec i s with | .next t => lookup t.cohorts 0 | _ => none
def groupAfter (i : Instr) (s : State) : Option Group := match exec i s with | .next t => lookup t.groups 0 | _ => none

/-- A block with the one lane word w of opcode op, and a mask. -/
def block (op : Nat) (w : LaneWord) (mask : Word := 0xFFFFFFFF) : LaneBlock :=
  { words := [encLaneWord op w], mask := mask, window := List.replicate 16 0, mode := 0, fpe := 0, spc := 0x100, marks := [] }

/-- A cohort that has the block in its lane queue, and holds the values of lane 0 of some registers. -/
def laneCo (b : LaneBlock) (v : List (Nat × Word)) : Cohort := { co0 [] with laneQ := [b], v := v.map (fun p => (p.1 * 32, p.2)) }

/-- Lane 0 of a register after a lane instruction. -/
def lane0 (i : Instr) (b : LaneBlock) (v : List (Nat × Word)) (r : Nat) : Option Word :=
  (after i (mk (laneCo b v))).map (fun c => c.vreg r 0)

/-! ## Worked examples of the spec -/

/-- R69, R73: the examples' addresses and work identifiers have the slices 177, 197 and 75. -/
theorem test_home_slices : homeSlice 0x30056789AB = 177 ∧ mix 0x30056789 = 0x8E1B56B9 ∧
    placeSlice 0x0007000100042003 0x0000FFFF00000000 = 197 ∧ placeSlice 0x0007000200042003 0x0000FFFF00000000 = 75 := by decide +kernel

/-- R66: the private address of the example of chapter 2. -/
theorem test_private_address :
    privateVa ⟨0, { co0 [] with priv := 5 }, group0, { launch0 with desc := BitVec.ofNat 512 (64 * 2 ^ 300 + 0x20000000000 * 2 ^ 64) }⟩
      7 0x24 = 0x20000005C9C := by decide +kernel

/-- R324: the example of VADDSAT and VADD on N8x4. -/
theorem test_vaddsat : lane0 (.vaddsat (lw 9 5 1 2 0 0)) (block 0x18 (lw 9 5 1 2 0 0)) [(1, 0xF01080FF), (2, 0x20F07F01)] 5 = some 0xFFFFFFFF := by
  decide +kernel
theorem test_vadd : lane0 (.vadd (lw 9 5 1 2 0 0)) (block 0x01 (lw 9 5 1 2 0 0)) [(1, 0xF01080FF), (2, 0x20F07F01)] 5 = some 0x1000FF00 := by
  decide +kernel

/-- R327: the example of VDOT4, with and without SAT. -/
theorem test_vdot4 : lane0 (.vdot4 (lw 8 5 1 2 3 0)) (block 0x1A (lw 8 5 1 2 3 0)) [(1, 0x7F7F7F7F), (2, 0x01010101), (3, 0x7FFFFFF0)] 5 =
    some 0x800001EC := by decide +kernel
theorem test_vdot4_sat : lane0 (.vdot4 (lw 8 5 1 2 3 1)) (block 0x1A (lw 8 5 1 2 3 1)) [(1, 0x7F7F7F7F), (2, 0x01010101), (3, 0x7FFFFFF0)] 5 =
    some 0x7FFFFFFF := by decide +kernel

/-- R357, R358: the examples of VPACK.W16.SATI, VPACK.W4.SATI and VUNPK.W16.SX. -/
theorem test_vpack_w4 : lane0 (.vpack (lw 0 9 4 0 0 4)) (block 0x40 (lw 0 9 4 0 0 4)) [(4, 7), (5, 0xFFFFFFF6)] 9 = some 0xFFF80007 := by
  decide +kernel
theorem test_vpack_w16 : lane0 (.vpack (lw 0 9 4 0 0 6)) (block 0x40 (lw 0 9 4 0 0 6)) [(4, 7), (5, 0xFFFFFFF6)] 9 = some 0xFFF60007 := by
  decide +kernel
theorem test_vunpk : lane0 (.vunpk (lw 0 10 9 0 0 14)) (block 0x41 (lw 0 10 9 0 0 14)) [(9, 0xFFF60007)] 10 = some 0xFFFFFFF6 := by decide +kernel

/-- R256, R355: the VCVT to E5M2 with stochastic rounding of chapter 13, and the VCVT to BF16 of chapter 9. -/
theorem test_vcvt_e5m2 : (after (.vcvt (lw 11 20 8 0 30 0x21D)) (mk (laneCo (block 0x3D (lw 11 20 8 0 30 0x21D) 1)
      [(8, 0x3F800000), (9, 0x47C35000), (10, 0x3E99999A), (11, 0x7FC00000), (30, 0x00400000)]))).map
      (fun c => (c.vreg 20 0, c.fpf)) = some (0x7E357B3C, 5) := by decide +kernel
theorem test_vcvt_bf16 : lane0 (.vcvt (lw 5 20 8 0 30 0x1D)) (block 0x3D (lw 5 20 8 0 30 0x1D) 1)
    [(8, 0x3F808000), (9, 0x40400000), (30, 0x12348000)] 20 = some 0x40403F81 := by decide +kernel

/-- R250: 500.0 to E4M3 gives 448 with OF and IX; 2^-10 ties to +0 with UF and IX, and RU gives the smallest subnormal. -/
theorem test_e4m3_corners : roundFV e4m3 0 false false (unpackF f32 0x43FA0000) = (0x7E, 5) ∧
    roundFV e4m3 0 false false (unpackF f32 0x3A800000) = (0, 3) ∧ roundFV e4m3 2 false false (unpackF f32 0x3A800000) = (1, 3) := by decide +kernel

/-- R339, R336: VREDX adds 1 and three times 2^-24 along its tree, VSCAN one lane after another. -/
def fourLanes (b : LaneBlock) : Cohort :=
  { co0 [] with laneQ := [b], v := [(64, 0x3F800000), (65, 0x33800000), (66, 0x33800000), (67, 0x33800000)] }
theorem test_vredx_tree : (after (.vredx (lw 3 20 2 0 0 0)) (mk (fourLanes (block 0x65 (lw 3 20 2 0 0 0) 15)))).map
    (fun c => (c.exports, c.fpf)) = some ([⟨20, 0x3F800001, false, 1⟩], 1) := by decide +kernel
theorem test_vscan_order : (after (.vscan (lw 3 3 2 0 0 0)) (mk (fourLanes (block 0x66 (lw 3 3 2 0 0 0) 15)))).map
    (fun c => ((List.range 5).map (c.vreg 3), c.fpf)) = some ([0x3F800000, 0x3F800000, 0x3F800000, 0x3F800000, 0], 1) := by decide +kernel

/-- R78, R79: X = 1.0 and 2^-23 added at once. -/
theorem test_combined_reduction : atomicWord 10 32 0x3F800000 (fadd f32 0 false 0x33800000 0x33800000).1 0 = 0x3F800001 := by decide +kernel

/-- R312, R313: the arrival and the drop of the example of chapter 11 complete phase 5 once. -/
theorem test_barrier_example :
    let g := writeBar group0 0x40 ⟨5, 3, 1, 8192, 8192, 0xFFFF, 0xFFFF, 0, 0, 1, 1⟩
    let a := (arriveBar g 0x40 10 1 1 false).getD (group0, 0)
    let d := (arriveBar a.1 0x40 10 2 1 true).getD (group0, 0)
    a.2 = 5 ∧ d.2 = 5 ∧ readBar d.1 0x40 = ⟨6, 2, 0, 0, 0, 2, 0xFFFF, 0, 0, 1, 1⟩ := by decide +kernel

/-- R443: the waits of the example of chapter 17. -/
theorem test_barrier_waits :
    let g := writeBar { group0 with waits := [⟨0, 0x40, 7, 101⟩, ⟨1, 0x40, 7, 141⟩] } 0x40 ⟨7, 3, 2, 0, 0, 0xFFFF, 0xFFFF, 0, 0, 1, 1⟩
    ((arriveBar g 0x40 400 2 1 false).map (fun r => ((readBar r.1 0x40).lasta, (readBar r.1 0x40).longw, (readBar r.1 0x40).longt))) =
      some (2, 0, 299) := by decide +kernel

/-- R317: ten ENTERs leave depth 10 and ids 3 to 10; eight LEAVEs leave depth 2 and no id. -/
theorem test_region_stack :
    let enter := fun (s : State) (k : Nat) => match exec (.enter (BitVec.ofNat 12 k)) s with | .next t => t | _ => s
    let leave := fun (s : State) (_ : Nat) => match exec .leave s with | .next t => t | _ => s
    let s := (List.range 10).foldl (fun s k => enter s (k + 1)) (mk (co0 []))
    let t := (List.range 8).foldl leave s
    (lookup s.cohorts 0).map (fun c => (c.depth, c.ids)) = some (10, [10, 9, 8, 7, 6, 5, 4, 3]) ∧
    (lookup t.cohorts 0).map (fun c => (c.depth, c.ids)) = some (2, []) := by decide +kernel

/-- R301: the LOOP with count 0 of chapter 20 skips its body. -/
theorem test_zero_trip_loop :
    (after (.loop 1 9 1) (mk { co0 [] with spc := 0x1010 })).map (fun c => (c.spc, c.loops.ls1, c.loops.le1, c.loops.lc1)) =
      some (0x1018, 0x1014, 0x1014, 0) := by decide +kernel

/-- R303: the BEQ of chapter 20 ends loop 1 alone. -/
theorem test_branch_ends_inner_loop :
    (after (.beq 14 17 4) (mk { co0 [] with spc := 0x1034, loops := ⟨0x101C, 0x1044, 2, 0x1020, 0x1040, 2⟩ })).map
      (fun c => (c.spc, c.loops.lc0, c.loops.lc1)) = some (0x1044, 2, 0) := by decide +kernel

/-- R360: the VMXQ of chapter 13, with IX and not OF. -/
def mxBlock : Cohort :=
  { co0 [] with laneQ := [block 0x42 (lw 3 12 3 0 0 0)], v := [(96, 0x40400000), (97, 0xBF400000), (101, 0x42C80000), (105, 0x447A0000)] }
theorem test_vmxq : (after (.vmxq (lw 3 12 3 0 0 0)) (mk mxBlock)).map
    (fun c => [c.vreg 12 0, c.vreg 12 1, c.vreg 12 2, c.vreg 12 8, c.fpf]) = some [0xAC3C, 0x6400, 0x7E00, 0x80, 1] := by decide +kernel

/-! ## Witnesses: states and operands that meet the hypotheses of the statements -/

theorem ok_of {ε α : Type} {e : Except ε α} {a : α} (h : e.toOption = some a) : e = .ok a := by
  cases e with
  | ok b => exact congrArg Except.ok (Option.some.inj h)
  | error x => exact nomatch h

/-- The cohort with registers s1 to s9 that runs at SPC 0x100. -/
def coR : Cohort := co0 [(1, 0x12345678), (2, 0x80000000), (3, 7), (5, 1)]

theorem test_wit_RegisterForms : Runs (mk coR) (cx coR) ∧
    scalarReady (cx coR) (useOf 63 [1, 2]) = true ∧ scalarReady (cx coR) (useOf 0 [63]) = true ∧
    scalarReady (cx coR) (useOf 63 [63, 1, 2]) = true := ⟨⟨rfl, rfl⟩, by decide +kernel⟩

theorem test_wit_ImmediateAndPairForms : Runs (mk coR) (cx coR) ∧
    scalarReady (cx coR) (useOf 63 [1]) = true ∧ scalarReady (cx coR) (useOf 63 []) = true ∧ scalarReady (cx coR) (useOf 63 [] 2) = true ∧
    scalarReady (cx coR) (useOf 63 [1] 2) = true ∧ scalarReady (cx coR) (usePairs 62 [2, 62]) = true ∧
    scalarReady (cx coR) (usePairs 62 [0]) = true := ⟨⟨rfl, rfl⟩, by decide +kernel⟩

/-- The cohort whose pair s4:s5 holds the last doubleword of the page, and s6 the offset 0x1FF8 of its scratchpad. -/
def coM : Cohort := co0 [(4, 0xFFF8), (6, 0x1FF8), (8, 0xAABBCCDD), (9, 1)]

/-- A core with a store of the cohort in its store order. -/
def coreS : Core := { core0 with stores := [⟨0, 0, cellsOf 0x10100 (leBytes 4 7), false, 0, 0, false, none⟩] }

/-- What a read of 8 bytes at 0x1FFF8 by the cohort leaves of a state, all that must come before it performed. -/
def readFirst (s : State) : State := beforeRead s 0 0 0 false 0 ((List.range 8).map (0x1FFF8 + ·))

theorem test_wit_ScalarLoads :
    let s := mk coM group0 coreS
    Runs s (cx coM) ∧ scalarReady (cx coM) { regs := pairOf 4 ++ dataOf 8 8, reads := pairOf 4, rd := true } = true ∧
    addrOf coM 4 0 % 64 ≤ 0x1FFF8 ∧ checkAccess s (cx coM).core (cx coM).t (addrOf coM 4 0) 8 8 .read = .ok ⟨0x1FFF8, 0⟩ ∧
    Became (readFirst s) (cx coM) (cx coM) ∧ rangeBad (readFirst s) 0x1FFF8 8 = false ∧ cutOff (readFirst s) 0x1FFF8 = false :=
  ⟨⟨rfl, rfl⟩, by decide +kernel, by decide +kernel, rfl, ⟨rfl, rfl, rfl⟩, by decide +kernel, by decide +kernel⟩

theorem test_wit_ScalarStores : Runs (mk coM) (cx coM) ∧
    scalarReady (cx coM) { regs := pairOf 4 ++ dataOf 8 8, reads := pairOf 4 ++ dataOf 8 8, wr := true } = true ∧
    checkAccess (mk coM) 0 0 (addrOf coM 4 0) 8 8 .write = .ok ⟨0x1FFF8, 0⟩ := ⟨⟨rfl, rfl⟩, by decide +kernel, rfl⟩

theorem test_wit_ScratchpadAccesses : Runs (mk coM) (cx coM) ∧
    scalarReady (cx coM) { regs := 6 :: 20 :: dataOf 8 8, reads := [6, 20], rd := true } = true ∧
    scalarReady (cx coM) { regs := 6 :: 20 :: dataOf 8 (2 ^ (3 : BitVec 7).toNat),
                           reads := 6 :: 20 :: dataOf 8 (2 ^ (3 : BitVec 7).toNat), wr := true } = true ∧
    Became (settleCtx (mk coM) (cx coM)) (cx coM) (cx coM) ∧
    ((coM.reg 6).toNat + (coM.reg 20).toNat) % 8 = 0 ∧ (coM.reg 6).toNat + (coM.reg 20).toNat + 8 ≤ (cx coM).node.spsz ∧
    (cx coM).g.rangeBad 0 0x1FF8 8 = false := ⟨⟨rfl, rfl⟩, by decide +kernel, by decide +kernel, ⟨rfl, rfl, rfl⟩, by decide +kernel⟩

/-- The state that a release of the cohort leaves. -/
def released (s : State) (scope : Nat) : State := (release s 0 0 0 scope).getD s

theorem test_wit_OrderedAccesses_atom : Runs (mk coM) (cx coM) ∧
    scalarReady (cx coM) { regs := pairOf 4 ++ dataOf 10 8 ++ dataOf 8 8 ++ dataOf 8 8, reads := pairOf 4 ++ dataOf 10 8 ++ dataOf 8 8,
                           rd := true, wr := true } = true ∧
    checkAccess (mk coM) 0 0 (pairNat coM 4) 8 8 .readWrite = .ok ⟨0x1FFF8, 0⟩ := ⟨⟨rfl, rfl⟩, by decide +kernel, rfl⟩

theorem test_wit_OrderedAccesses_ldo :
    let s := mk coM group0 coreS
    let r := released s 5
    let q := fun u : State => readFirst (acquire u 0 5)
    Runs s (cx coM) ∧ scalarReady (cx coM) { regs := pairOf 4 ++ dataOf 8 8, reads := pairOf 4, join := true, rd := true } = true ∧
    checkAccess s 0 0 (pairNat coM 4) 8 8 .read = .ok ⟨0x1FFF8, 0⟩ ∧ coM.pend = [] ∧ release s 0 0 0 5 = some r ∧
    Became (q s) (cx coM) (cx coM) ∧ rangeBad (q s) 0x1FFF8 8 = false ∧ cutOff (q s) 0x1FFF8 = false ∧
    Became (q r) (cx coM) (cx coM) ∧ rangeBad (q r) 0x1FFF8 8 = false ∧ cutOff (q r) 0x1FFF8 = false :=
  ⟨⟨rfl, rfl⟩, by decide +kernel, rfl, rfl, rfl, ⟨rfl, rfl, rfl⟩, by decide +kernel, by decide +kernel, ⟨rfl, rfl, rfl⟩, by decide +kernel⟩

theorem test_wit_OrderedAccesses_sto :
    let s := mk coM group0 coreS
    let r := (release s 0 0 0 5 true).getD s
    Runs s (cx coM) ∧ scalarReady (cx coM)
      { regs := pairOf 4 ++ dataOf 8 8, reads := pairOf 4 ++ dataOf 8 8, join := true, wr := true } = true ∧
    checkAccess s 0 0 (pairNat coM 4) 8 8 .write = .ok ⟨0x1FFF8, 0⟩ ∧ release s 0 0 0 5 true = some r ∧ Became r (cx coM) (cx coM) ∧
    nothingOut (r.core 0) 0 ∧ (∀ e ∈ (r.core 0).stores, e.c ≠ 0 ∧ meets e.cells ((List.range 8).map (0x1FFF8 + ·)) = false) ∧
    plainTarget r ((List.range 8).map (0x1FFF8 + ·)) := by
  refine ⟨⟨rfl, rfl⟩, by decide +kernel, rfl, rfl, ⟨rfl, rfl, rfl⟩, ?_, ?_, ?_⟩ <;> try simp only [nothingOut, plainTarget]
  all_goals decide +kernel

/-- A cohort for transfers: s1 below s2, s10 a word address, a BTAB whose planes s20 and s21 give lanes 0 to 3 the choices 0 to 2,
and mask s22. -/
def coB : Cohort := co0 [(1, 0xFFFFFFFF), (2, 1), (10, 0x400), (20, 0xA), (21, 0x4), (22, 0xF)]

theorem test_wit_Branches : Runs (mk coB) (cx coB) ∧ scalarReady (cx coB) {} = true ∧
    scalarReady (cx coB) { regs := [10], reads := [10] } = true ∧ (coB.reg 10).toNat % 4 = 0 ∧
    scalarReady (cx coB) { regs := [1, 2], reads := [1, 2] } = true ∧
    (∀ p ∈ branchForms, p.2 (coB.reg 1) (coB.reg 2) = true ∨ p.2 (coB.reg 2) (coB.reg 1) = true ∨ p.2 (coB.reg 1) (coB.reg 1) = true) ∧
    (∀ p ∈ branchForms, p.2 (coB.reg 1) (coB.reg 2) = false ∨ p.2 (coB.reg 2) (coB.reg 1) = false ∨ p.2 (coB.reg 1) (coB.reg 1) = false) ∧
    coB.reg 0 = 0 ∧ coB.reg 1 ≠ 0 := ⟨⟨rfl, rfl⟩, by decide +kernel⟩

/-- The choices of its planes. -/
def choiceB (l : Nat) : Nat := ((List.range 2).map (fun p => if (coB.reg (20 + p)).getLsbD l then 2 ^ p else 0)).sum

theorem test_wit_Btab : Runs (mk coB) (cx coB) ∧ scalarReady (cx coB)
      { regs := pairOf 22 ++ (List.range 2).map (20 + ·), reads := 22 :: (List.range 2).map (20 + ·), len := 4 } = true ∧
    coB.reg 22 &&& coB.live = 0xF ∧ coB.reg 24 &&& coB.live = 0 ∧ choiceB 0 = 0 ∧
    (∀ l ∈ List.range 32, (0xF : Word).getLsbD l = true → choiceB l < 3) ∧ coB.retDepth < 8 :=
  ⟨⟨rfl, rfl⟩, by decide +kernel, by decide +kernel, by decide +kernel, by decide +kernel, by decide +kernel, by decide +kernel⟩

/-- A cohort whose return stack is full on core: the next push spills the oldest entry. -/
def coC : Cohort := { co0 [] with retDepth := 8, ret := [0x200, 0x204, 0x208, 0x20C, 0x210, 0x214, 0x218, 0x21C] }

theorem test_wit_CallPushesAndRetPops : Runs (mk coC) (cx coC) ∧ scalarReady (cx coC) {} = true ∧ 8 ≤ coC.retDepth ∧ coC.retDepth < 264 ∧
    checkAccess (mk coC) 0 0 (spillVa (cx coC) 0) 8 8 .write = .ok ⟨0x18000, 0⟩ ∧
    Runs (mk (co0 [])) (cx (co0 [])) ∧ scalarReady (cx (co0 [])) {} = true ∧
    (co0 []).retDepth < 8 := ⟨⟨rfl, rfl⟩, by decide +kernel, by decide +kernel, by decide +kernel, ok_of (by decide +kernel),
      ⟨rfl, rfl⟩, by decide +kernel⟩

/-- A cohort at the end of both of its loops, loop 1 in its last iteration. -/
def coL (lc0 lc1 : Word) : Cohort := { co0 [(3, 5)] with loops := ⟨0x80, 0x100, lc0, 0xC0, 0x100, lc1⟩ }

theorem test_wit_Loops : Runs (mk (coL 2 1)) (cx (coL 2 1)) ∧ scalarReady (cx (coL 2 1)) { regs := [3], reads := [3] } = true ∧
    scalarReady (cx (coL 2 1)) {} = true ∧ (coL 2 1).reg 3 ≠ 0 ∧ (coL 2 1).reg 4 = 0 ∧
    Runs (mk (coL 1 1)) (cx (coL 1 1)) ∧ Runs (mk (coL 1 2)) (cx (coL 1 2)) ∧ Runs (mk (coL 2 0)) (cx (coL 2 0)) ∧
    Runs (mk (coL 1 0)) (cx (coL 1 0)) ∧ Runs (mk (coL 0 1)) (cx (coL 0 1)) ∧ scalarReady (cx (coL 0 1)) {} = true :=
  ⟨⟨rfl, rfl⟩, by decide +kernel, by decide +kernel, by decide +kernel, by decide +kernel, ⟨rfl, rfl⟩, ⟨rfl, rfl⟩, ⟨rfl, rfl⟩, ⟨rfl, rfl⟩,
    ⟨rfl, rfl⟩, by decide +kernel⟩

theorem test_wit_SynchronisingInstructions :
    let s := mk (co0 []) group0 coreS
    let r := released s 5
    Runs s (cx (co0 [])) ∧ scalarReady (cx (co0 [])) { join := true } = true ∧ (∀ p ∈ (co0 []).pend, p.scalar = true) ∧
    (co0 []).pend = [] ∧ release s 0 0 0 5 = some r ∧ Became r (cx (co0 [])) (cx (co0 [])) ∧
    (∃ u, release s 0 0 0 5 true = some u ∧ Became u (cx (co0 [])) (cx (co0 []))) ∧ Became s (cx (co0 [])) (cx (co0 [])) :=
  ⟨⟨rfl, rfl⟩, by decide +kernel, by decide +kernel, rfl, rfl, ⟨rfl, rfl, rfl⟩, ⟨_, rfl, rfl, rfl, rfl⟩, ⟨rfl, rfl, rfl⟩⟩

theorem test_wit_ARelease : release (mk (co0 []) group0 coreS) 0 0 0 2 = some (released (mk (co0 []) group0 coreS) 2) := rfl

theorem test_wit_SpecialRegisters : Runs (mk coB) (cx coB) ∧ scalarReady (cx coB) { regs := [1], join := true } = true ∧
    scalarReady (cx coB) { regs := [1], reads := [1], join := true } = true ∧ 14 ≤ (21 : BitVec 6).toNat ∧ (21 : BitVec 6).toNat < 22 :=
  ⟨⟨rfl, rfl⟩, by decide +kernel⟩

/-- What LANE of n words at word 0 leaves of the state, the faults of its fetch, and the words. -/
def fetchedBlock (c : Cohort) (n : Nat) : State × List AccFault × List (BitVec 96) := blockWords (cx c) n (mk c) 0

theorem nofault_of {α β : Type} {p : α × List AccFault × β} (h : p.2.1 = []) : p = (p.1, [], p.2.2) := by
  obtain ⟨a, f, b⟩ := p; cases h; rfl

theorem test_wit_LaneQueues : Runs (mk coR) (cx coR) ∧ scalarReady (cx coR) { regs := [1], reads := [1], len := 2 } = true ∧
    coR.reg 1 &&& coR.live ≠ 0 ∧ coR.reg 9 &&& coR.live = 0 ∧ coR.laneQ.length < 4 ∧
    (∀ r ∈ List.range 16, coR.busyReg r = false ∧ coR.badS.contains r = false) ∧
    fetchedBlock coR 64 = ((fetchedBlock coR 64).1, [], (fetchedBlock coR 64).2.2) :=
  ⟨⟨rfl, rfl⟩, by decide +kernel, by decide +kernel, by decide +kernel, by decide +kernel, by decide +kernel, nofault_of (by decide +kernel)⟩

/-- A cohort whose s5 is the offset of the last object of the scratchpad, s6 an arrival count, and its group with an object there. -/
def coBar : Cohort := co0 [(5, 0x1FE0), (6, 65535), (7, 3)]
def groupBar (b : Bar) : Group := writeBar group0 0x1FE0 b

theorem test_wit_Barriers :
    let s := mk coBar (groupBar ⟨4, 2, 1, 8, 8, 0, 0, 0, 0, 1, 1⟩) coreS
    let x := cx coBar (groupBar ⟨4, 2, 1, 8, 8, 0, 0, 0, 0, 1, 1⟩)
    Runs s x ∧ barReady s x 8 5 [6] 0x1FE0 ∧ barReady s x 8 5 [] 0x1FE0 ∧ Became (settleCtx s x) x x ∧ 0 < (x.co.reg 6).toNat ∧ (x.co.reg 6).toNat ≤ 65535 ∧
    1 ≤ (5 : BitVec 6).toNat ∧ (5 : BitVec 6).toNat ≤ 5 ∧
    ¬ ((readBar x.g 0x1FE0).arr = (readBar x.g 0x1FE0).expa ∧ (readBar x.g 0x1FE0).landb < (readBar x.g 0x1FE0).expb) ∧
    x.g.rangeBad 0 0x1FE0 32 = false ∧ release s 0 0 0 5 = some (released s 5) ∧ Became (released s 5) x x ∧
    (readBar x.g 0x1FE0).expa ≠ (readBar x.g 0x1FE0).drops + 1 ∧ (readBar x.g 0x1FE0).expb + (x.co.reg 6).toNat ≤ 2 ^ 32 - 1 ∧
    phasePast (readBar x.g 0x1FE0).phase (x.co.reg 7) ∧ ¬ phasePast (readBar x.g 0x1FE0).phase (x.co.reg 6) ∧
    ¬ phasePast 3 (x.co.reg 7) := by
  refine ⟨⟨rfl, rfl⟩, ?_, ?_, ⟨rfl, rfl, rfl⟩, ?_, ?_, ?_, ?_, ?_, ?_, rfl, ⟨rfl, rfl, rfl⟩, ?_⟩ <;> try simp only [barReady, phasePast]
  all_goals decide +kernel

/-- The safe-point table's last entry: s4, v0, no loops, no stub, no extent. -/
def safeMem : List Host.Cell := writeCells [] (cellsOf 0x108C0 (leBytes 9 0x0100000000000010))
def stSafe (c : Cohort) (g : Group := group0) : State := { mk c g with mem := safeMem }

theorem test_wit_Safe : Runs (stSafe (co0 [])) (cx (co0 [])) ∧ scalarReady (cx (co0 [])) { join := true, safe := true } = true ∧
    (cx (co0 [])).g.halt = none ∧ (co0 []).handler = false ∧ (3 : BitVec 10).toNat < (cx (co0 [])).node.nsafe ∧ group0.save = false ∧
    checkAccess (stSafe (co0 [])) 0 0 (((cx (co0 [])).node.spt + 64 * 3) % 2 ^ 64) 64 1 .read = .ok ⟨0x108C0, 0⟩ ∧
    rangeBad (stSafe (co0 [])) 0x108C0 64 = false ∧ cutOff (stSafe (co0 [])) 0x108C0 = false ∧
    safeBad (cx (co0 [])) (withOwn (stSafe (co0 [])) (cx (co0 [])) 0x108C0 (coreRead (stSafe (co0 [])) 0 0x108C0 64)) = false :=
  ⟨⟨rfl, rfl⟩, by decide +kernel, rfl, rfl, by decide +kernel, rfl, ok_of (by decide +kernel), by decide +kernel, by decide +kernel,
    by decide +kernel⟩

theorem test_wit_RegionEdges : Runs (mk (co0 [])) (cx (co0 [])) ∧ scalarReady (cx (co0 [])) {} = true ∧ group0.halt = none ∧
    ((mk (co0 [])).tenant 0).trctl.getLsbD 0 = false ∧ ((mk (co0 [])).tenant 0).right = false := ⟨⟨rfl, rfl⟩, by decide +kernel⟩

/-- The state with a tenant 0 whose trap block is set. -/
def withHandler (s : State) : State := { s with tenants := [(0, { thbase := 0x0000030000002001, thctl := 0x10020 })] }
/-- A second cohort of the group, that runs. -/
def mate (c : Cohort) : Cohort := { c with ix := 1 }
def withMate (s : State) (c : Cohort) : State := { s with cohorts := s.cohorts ++ [(1, c)] }

theorem test_wit_Trap :
    let s := withMate (withHandler (mk coR)) (mate coR)
    Runs s (cx coR) ∧ scalarReady (cx coR) { regs := [1], reads := [1] } = true ∧ coR.laneIdle = true ∧ coR.handler = false ∧
    nothingSent s (cx coR) ∧ (s.tenant 0).thctl.getLsbD 16 = true ∧ (s.tenant 0).thctl.toNat % 65536 ≠ 0 ∧
    (∀ p ∈ s.cohorts, p.1 ≠ 0 → p.2.grp = 0 → p.2.handler = false ∧ p.2.park ≠ some .handler) ∧
    Runs (mk coR) (cx coR) ∧ ((mk coR).tenant 0).thctl.getLsbD 16 = false ∧ nothingSent (mk coR) (cx coR) := by
  refine ⟨⟨rfl, rfl⟩, ?_, ?_, ?_, ?_, ?_, ?_, ?_, ⟨rfl, rfl⟩, ?_⟩ <;> try simp only [nothingSent, nothingOut]
  all_goals decide +kernel

/-- A cohort in its handler, whose anchor is a SAFE with a rebuild stub. -/
def coH (stub : Word) (ix : Nat) : Cohort :=
  { co0 [(50, 9)] with handler := true, hgap := 0x20, shadow := List.replicate 16 4,
                       anchor := { ix := ix, spc := 0x80, entry := { stub := stub }, retDepth := 7, ret := List.replicate 7 0x40 } }

theorem test_wit_Tret : Runs (mk (coH 0x201 2)) (cx (coH 0x201 2)) ∧ Runs (mk (coH 0 2)) (cx (coH 0 2)) ∧ Runs (mk (coH 0 1023)) (cx (coH 0 1023)) ∧
    scalarReady (cx (coH 0x201 2)) { regs := (List.range 16).map (48 + ·), join := true } = true ∧ (coH 0x201 2).handler = true ∧ (coH 0x201 2).anchor.retDepth < 8 ∧
    (coH 0x201 2).anchor.entry.stub.getLsbD 0 = true ∧ (coH 0 2).anchor.entry.stub.getLsbD 0 = false :=
  ⟨⟨rfl, rfl⟩, ⟨rfl, rfl⟩, ⟨rfl, rfl⟩, by decide +kernel⟩

theorem test_wit_Done : Runs (mk coR) (cx coR) ∧ scalarReady (cx coR) { join := true } = true ∧ group0.halt = none ∧ coR.heldOps = [] ∧
    coR.pend = [] ∧ coR.openOps = 0 ∧ coR.frep = none ∧ group0.loader.mode = .ended ∧ group0.storer.mode = .ended ∧
    (∀ p ∈ (mk coR).cohorts, p.2.grp = 0 → p.2.batchesDone = true ∧ (p.1 = 0 ∨ p.2.ended = true)) ∧
    Runs (withMate (mk coR) (mate coR)) (cx coR) ∧ (∃ p ∈ (withMate (mk coR) (mate coR)).cohorts, p.1 ≠ 0 ∧ p.2.grp = 0 ∧ p.2.ended = false) :=
  ⟨⟨rfl, rfl⟩, by decide +kernel, rfl, rfl, rfl, rfl, rfl, rfl, rfl, by decide +kernel, ⟨rfl, rfl⟩, by decide +kernel⟩

/-- Lane words: the cohort with vectors v1 to v3 whose lane queue holds the word w, for a mask. -/
def laneVals : List (Nat × Word) :=
  [(32, 0x80000000), (33, 0x3F800000), (63, 0x7F800001), (64, 31), (95, 0xFFFFFFFF), (127, 0x12345678)]
def coW (w : LaneWord) (mask : Word := 0x80000003) : Cohort := { co0 [] with laneQ := [block 0 w mask], v := laneVals }
def laneSt (w : LaneWord) (mask : Word := 0x80000003) : State := mk (coW w mask)
def laneK (w : LaneWord) (mask : Word := 0x80000003) : LCtx := ⟨cx (coW w mask), block 0 w mask, w⟩

theorem laneGo_of {w : LaneWord} {mask : Word} {op : Nat} (h : laneReady (laneK w mask).x (block 0 w mask) op w = true) :
    LaneGo (laneSt w mask) (laneK w mask) op := ⟨⟨⟨rfl, rfl⟩, rfl⟩, h, fun _ => rfl⟩

theorem test_wit_IntegerElementForms : ∀ p ∈ elementForms, LaneGo (laneSt (lw 8 255 1 2 3 1)) (laneK (lw 8 255 1 2 3 1)) p.2.1 :=
  fun p hp => laneGo_of ((by decide +kernel : ∀ p ∈ elementForms,
    laneReady (laneK (lw 8 255 1 2 3 1)).x (block 0 (lw 8 255 1 2 3 1) 0x80000003) p.2.1 (lw 8 255 1 2 3 1) = true) p hp)

theorem test_wit_WordForms : (∀ p ∈ wordForms, LaneGo (laneSt (lw 1 255 1 2 3 0)) (laneK (lw 1 255 1 2 3 0)) p.2.1) ∧
    LaneGo (laneSt (lw 0 255 1 2 3 0xE8)) (laneK (lw 0 255 1 2 3 0xE8)) 0x1B ∧
    LaneGo (laneSt (lw 9 255 1 2 3 3)) (laneK (lw 9 255 1 2 3 3)) 0x1A ∧ LaneGo (laneSt (lw 9 255 1 2 0 5)) (laneK (lw 9 255 1 2 0 5)) 0x11 :=
  ⟨fun p hp => laneGo_of ((by decide +kernel : ∀ p ∈ wordForms,
    laneReady (laneK (lw 1 255 1 2 3 0)).x (block 0 (lw 1 255 1 2 3 0) 0x80000003) p.2.1 (lw 1 255 1 2 3 0) = true) p hp),
   laneGo_of (by decide +kernel), laneGo_of (by decide +kernel), laneGo_of (by decide +kernel)⟩

theorem test_wit_LanesTakeValues : (∀ p ∈ moveForms, LaneGo (laneSt (lw 0 255 1 2 3 1)) (laneK (lw 0 255 1 2 3 1)) p.2.1) ∧
    (lw 0 255 1 2 3 1).md.getLsbD 1 = false ∧ LaneGo (laneSt (lw 0 255 1 2 0 3)) (laneK (lw 0 255 1 2 0 3)) 0x62 ∧
    (lw 0 255 1 2 0 3).md.getLsbD 1 = true ∧ LaneGo (laneSt (lw 0 255 1 272 3 0)) (laneK (lw 0 255 1 272 3 0)) 0x63 ∧
    uniformCode (lw 0 255 1 272 3 0).b ∧ LaneGo (laneSt (lw 0 255 1 0 0 1)) (laneK (lw 0 255 1 0 0 1)) 0x63 ∧
    (lw 0 255 1 0 0 1).md.getLsbD 0 = true ∧ LaneGo (laneSt (lw 0 255 2 0 0 1)) (laneK (lw 0 255 2 0 0 1)) 0x68 :=
  ⟨fun p hp => laneGo_of ((by decide +kernel : ∀ p ∈ moveForms,
    laneReady (laneK (lw 0 255 1 2 3 1)).x (block 0 (lw 0 255 1 2 3 1) 0x80000003) p.2.1 (lw 0 255 1 2 3 1) = true) p hp),
   by decide, laneGo_of (by decide +kernel), by decide, laneGo_of (by decide +kernel), .inl (by decide), laneGo_of (by decide +kernel),
   by decide, laneGo_of (by decide +kernel)⟩

theorem test_wit_Fields : LaneGo (laneSt (lw 0 0 0 0 0 0)) (laneK (lw 0 0 0 0 0 0)) 0x00 ∧
    LaneGo (laneSt (lw 0 255 1 0 0 14)) (laneK (lw 0 255 1 0 0 14)) 0x41 ∧ (lw 0 255 1 0 0 10).mdn % 4 ≤ 2 ∧
    (lw 0 255 1 0 0 10).mdn / 4 % 4 ≤ 2 ∧ LaneGo (laneSt (lw 0 255 1 0 0 10)) (laneK (lw 0 255 1 0 0 10)) 0x40 :=
  ⟨laneGo_of (by decide +kernel), laneGo_of (by decide +kernel), by decide, by decide, laneGo_of (by decide +kernel)⟩

theorem test_wit_Exports : LaneGo (laneSt (lw 0 63 1 0 0 4)) (laneK (lw 0 63 1 0 0 4)) 0x64 ∧
    (∀ l ∈ List.range 32, (0 : Word).getLsbD l = ((laneK (lw 0 63 1 0 0 4)).active l &&
      (decide ((laneK (lw 0 63 1 0 0 4)).a l ≠ 0) != (lw 0 63 1 0 0 4).md.getLsbD 2))) ∧
    LaneGo (laneSt (lw 0 62 2 0 0 3)) (laneK (lw 0 62 2 0 0 3)) 0x67 ∧ LaneGo (laneSt (lw 1 63 1 0 0 0)) (laneK (lw 1 63 1 0 0 0)) 0x65 ∧
    (redTree (laneK (lw 1 63 1 0 0 0))).2 &&& (laneK (lw 1 63 1 0 0 0)).blk.fpe.setWidth 5 = 0 ∧ (laneK (lw 1 63 1 0 0 0)).act ≠ [] :=
  ⟨laneGo_of (by decide +kernel), by decide +kernel, laneGo_of (by decide +kernel), laneGo_of (by decide +kernel), by decide +kernel,
   by decide +kernel⟩

theorem test_wit_Scans : LaneGo (laneSt (lw 3 255 1 0 3 0x80)) (laneK (lw 3 255 1 0 3 0x80)) 0x66 ∧
    (scanExcl (laneK (lw 3 255 1 0 3 0x80)) (laneK (lw 3 255 1 0 3 0x80)).act).foldl (fun m r => m ||| r.2.2) 0 &&&
      (laneK (lw 3 255 1 0 3 0x80)).blk.fpe.setWidth 5 = 0 ∧ (laneK (lw 3 255 1 0 3 0x80)).act = [0, 1, 31] :=
  ⟨laneGo_of (by decide +kernel), by decide +kernel, by decide +kernel⟩

theorem test_wit_FloatForms : (∀ p ∈ floatForms, LaneGo (laneSt (lw 3 255 1 2 3 0)) (laneK (lw 3 255 1 2 3 0)) p.2.1) ∧
    LaneGo (laneSt (lw 5 255 1 0 0 0)) (laneK (lw 5 255 1 0 0 0)) 0x37 :=
  ⟨fun p hp => laneGo_of ((by decide +kernel : ∀ p ∈ floatForms,
    laneReady (laneK (lw 3 255 1 2 3 0)).x (block 0 (lw 3 255 1 2 3 0) 0x80000003) p.2.1 (lw 3 255 1 2 3 0) = true) p hp),
   laneGo_of (by decide +kernel)⟩

theorem test_wit_Conversions : LaneGo (laneSt (lw 11 255 1 0 3 0x21D)) (laneK (lw 11 255 1 0 3 0x21D)) 0x3D ∧
    LaneGo (laneSt (lw 3 255 1 0 0 0)) (laneK (lw 3 255 1 0 0 0)) 0x42 ∧ LaneGo (laneSt (lw 3 255 1 0 0 0)) (laneK (lw 3 255 1 0 0 0)) 0x43 ∧
    tyCount (lw 11 255 1 0 3 0x21D).src ≤ tyCount (lw 11 255 1 0 3 0x21D).tyn ∧ (lw 11 255 1 0 3 0x21D).part = 0 :=
  ⟨laneGo_of (by decide +kernel), laneGo_of (by decide +kernel), laneGo_of (by decide +kernel), by decide, by decide⟩

/-- A VFADD of lane 0, 1.0 + 2^-24, whose block traps IX, in a cohort with a handler to be had. -/
def blkT : LaneBlock := { block 0 (lw 3 5 1 2 0 0) 1 with fpe := 1 }
def coT : Cohort := { co0 [] with laneQ := [blkT], v := [(32, 0x3F800000), (64, 0x33800000)] }
def stT : State := withMate (withHandler (mk coT)) (mate coR)
def kT : LCtx := ⟨cx coT, blkT, lw 3 5 1 2 0 0⟩

theorem test_wit_AnEnabledFlagTraps : LaneGo stT kT 0x30 ∧
    (fadd kT.fmt kT.rmode kT.ftz (element 3 (kT.a 0) 0).2 (element 3 (kT.b 0) 0).2) = (0x3F800000, 1) ∧ kT.act = [0] ∧ tyCount 3 = 1 ∧
    allFlags [allFlags [(1 : Sticky)]] &&& kT.blk.fpe.setWidth 5 ≠ 0 ∧ coT.handler = false ∧ coT.exports = [] ∧ nothingSent stT kT.x ∧
    (stT.tenant 0).thctl.getLsbD 16 = true ∧ (stT.tenant 0).thctl.toNat % 65536 ≠ 0 ∧
    (∀ p ∈ stT.cohorts, p.1 ≠ 0 → p.2.grp = 0 → p.2.handler = false ∧ p.2.park ≠ some .handler) := by
  refine ⟨⟨⟨⟨rfl, rfl⟩, rfl⟩, ?_, fun _ => rfl⟩, ?_, ?_, ?_, ?_, ?_, ?_, ?_, ?_⟩ <;> try simp only [nothingSent, nothingOut]
  all_goals decide +kernel

theorem ok_get {ε α : Type} {e : Except ε α} (d : α) (h : e.toOption.isSome = true) : e = .ok (e.toOption.getD d) := by
  cases e with
  | ok b => rfl
  | error x => exact nomatch h

/-- Lane words that access memory: lanes 0, 1 and 31 hold in v4:v5 the addresses, and in v4 the offsets, 0, 16 and 0x1FF0, and data
from v10 on. -/
def memVals : List (Nat × Word) := [(129, 16), (159, 0x1FF0), (320, 0xA1B2C3D4), (321, 5), (351, 0x80), (352, 0x3F800000), (383, 9)]
def coX (w : LaneWord) : Cohort := { coW w with v := memVals }
def memG : Group := { group0 with sp := writeCells [] (cellsOf 0x1FF0 (leBytes 16 0x8182838485868788898A8B8C8D8E8F90)) }
def memC : Core := { core0 with stores := [⟨1, 0, cellsOf 0x10014 (leBytes 4 7), false, 0, 0, false, none⟩] }
def memSt (w : LaneWord) (C : Core := core0) : State :=
  { mk (coX w) memG C with mem := writeCells [] (cellsOf 0x11FF0 (leBytes 16 0x112233445566778899AABBCCDDEEFF00)) }
def memK (w : LaneWord) : LCtx := ⟨cx (coX w) memG, block 0 w 0x80000003, w⟩

theorem memGo_of {w : LaneWord} {C : Core} {op : Nat} (h : laneReady (memK w).x (memK w).blk op w = true) :
    LaneGo (memSt w C) (memK w) op := ⟨⟨⟨rfl, rfl⟩, rfl⟩, h, fun _ => rfl⟩

/-- The pieces of a word's accesses. -/
def piecesOf (s : State) (k : LCtx) (sm n align : Nat) (kd : AccessKind) (bad : Xlat → Bool) : List Piece :=
  (allPieces s k sm n align kd bad).toOption.getD []

/-- What a lane load reads. -/
theorem read_of {α β γ : Type} {p : α × β × Option γ} (h : p.2.2 = none) : p = (p.1, p.2.1, none) := by
  obtain ⟨a, b, c⟩ := p; cases h; rfl

theorem became_of {r : State} {x : Ctx} (h : ctxOf r x.c = some x) : Became r x x := ⟨h, rfl, rfl⟩

theorem below_of {p : Nat → Prop} {n : Nat} (h : ∀ l ∈ List.range n, p l) : ∀ l, l < n → p l := fun l hl => h l (List.mem_range.mpr hl)

theorem test_wit_LaneLoads_local :
    LaneGo (memSt (lw 0 10 4 0 0 0x2C0)) (memK (lw 0 10 4 0 0 0x2C0)) 0x80 ∧ (lw 0 10 4 0 0 0x2C0).sm = 5 ∧
    inSpace (memSt (lw 0 10 4 0 0 0x2C0)) (memK (lw 0 10 4 0 0 0x2C0)) 0 16 ∧ spaceGood (memK (lw 0 10 4 0 0 0x2C0)) 0 16 :=
  ⟨memGo_of (by decide +kernel), by decide, below_of (by decide +kernel), below_of (by decide +kernel)⟩

/-- A VLD of 16 bytes with ACQ at .DIE, in per-lane mode. -/
def wVld : LaneWord := lw 0 10 4 0 0 0x46
def piecesV : List Piece := piecesOf (memSt wVld memC) (memK wVld) wVld.sm 16 16 .read (fun _ => false)
def readV : State × List (Nat × Word) × Option Nat := readLanes (memSt wVld memC) (memK wVld) false piecesV
theorem test_wit_LaneLoads_global :
    LaneGo (memSt wVld memC) (memK wVld) 0x80 ∧ wVld.sm ≠ 5 ∧ 16 = widthBytes wVld.wd ∧ 3 ≤ wVld.ord ∧ wVld.ord ≤ 6 ∧
    allPieces (memSt wVld memC) (memK wVld) wVld.sm 16 16 .read (fun _ => false) = .ok piecesV ∧
    readLanes (memSt wVld memC) (memK wVld) (decide (wVld.ord ≤ 2)) piecesV = (readV.1, readV.2.1, none) ∧
    Became readV.1 (memK wVld).x (memK wVld).x ∧ nothingOut ((memSt wVld memC).core 0) 0 ∧
    (∀ e ∈ ((memSt wVld memC).core 0).stores, e.c ≠ 0) :=
  ⟨memGo_of (by decide +kernel), by decide, by decide, by decide, by decide, ok_get [] (by decide +kernel),
   (show readV = _ from read_of (by decide +kernel)), became_of (by rfl), by simp only [nothingOut]; decide +kernel, by decide +kernel⟩

/-- VLDB of 8 bytes of CBUF, and VLDT of bytes. -/
def wVldb : LaneWord := lw 0 10 4 0 0 0x360
def wVldt : LaneWord := lw 0 10 4 0 0 0

/-- The bytes of the rows of VLDT, and what each lane takes of them. -/
def rowT (l : Nat) : List Byte :=
  if l < 32 ∧ (memK wVldt).active l = true then bytesAt memG.sp ((memK wVldt).ea 5 l).toNat 16 else List.replicate 16 0
def outT (l : Nat) : List Byte :=
  (List.range 16).map (fun b => (rowT (l / 4 * 4 + b / 1 % 4)).getD ((l % 4 * 4 + b / 4) * 1 + b % 1) 0)

theorem test_wit_LanesReadLocalSpaces :
    LaneGo (memSt wVldb) (memK wVldb) 0x89 ∧ wVldb.am ≠ 0 ∧ 8 = widthBytes wVldb.bwd ∧ inSpace (memSt wVldb) (memK wVldb) wVldb.am 8 ∧
    spaceGood (memK wVldb) wVldb.am 8 ∧ LaneGo (memSt wVldt) (memK wVldt) 0x88 ∧ wVldt.am ≤ 2 ∧ inSpace (memSt wVldt) (memK wVldt) 0 16 ∧
    spaceGood (memK wVldt) 0 16 ∧ (∀ l, (outT l).length = 16) ∧
    (∀ l ∈ List.range 32, ∀ j ∈ List.range 4, ∀ r ∈ List.range 4, (outT l).getD (j * 4 + r * 1 + 0) 0 = (rowT (l / 4 * 4 + r)).getD ((l % 4 * 4 + j) * 1 + 0) 0) :=
  ⟨memGo_of (by decide +kernel), by decide, by decide, below_of (by decide +kernel), below_of (by decide +kernel), memGo_of (by decide +kernel),
   by decide, below_of (by decide +kernel), below_of (by decide +kernel), fun _ => rfl, by decide +kernel⟩

/-- VST of 8 bytes to the scratchpad with REL.SYS, the same in per-lane mode, and VSTB of halfwords to ABUF. -/
def wVstL : LaneWord := lw 0 10 4 0 0 0x2BD
def wVstG : LaneWord := lw 0 10 4 0 0 0x03D
def wVstb : LaneWord := lw 0 10 4 0 0 0x240
/-- The state that a release leaves that only holds later stores back. -/
def releasedF (s : State) (scope : Nat) : State := (release s 0 0 0 scope true).getD s
def cellsG : List Host.Cell := laneCells (memK wVstG) 8 (piecesOf (memSt wVstG memC) (memK wVstG) wVstG.sm 8 8 .write (fun _ => false))

theorem test_wit_LaneStores :
    LaneGo (memSt wVstL memC) (memK wVstL) 0x81 ∧ wVstL.sm = 5 ∧ 8 = widthBytes wVstL.wd ∧ inSpace (memSt wVstL memC) (memK wVstL) 0 8 ∧
    Released (memSt wVstL memC) (releasedF (memSt wVstL memC) 5) (memK wVstL) (wVstL.rel = true) (wVstL.ord - 1) true ∧
    Became (settleCtx (releasedF (memSt wVstL memC) 5) (memK wVstL).x) (memK wVstL).x (memK wVstL).x ∧
    LaneGo (memSt wVstG memC) (memK wVstG) 0x81 ∧ wVstG.sm ≠ 5 ∧ 8 = widthBytes wVstG.wd ∧
    allPieces (memSt wVstG memC) (memK wVstG) wVstG.sm 8 8 .write (fun _ => false) =
      .ok (piecesOf (memSt wVstG memC) (memK wVstG) wVstG.sm 8 8 .write (fun _ => false)) ∧
    Released (memSt wVstG memC) (releasedF (memSt wVstG memC) 5) (memK wVstG) (wVstG.rel = true) (wVstG.ord - 1) true ∧
    Became (releasedF (memSt wVstG memC) 5) (memK wVstG).x (memK wVstG).x ∧
    LaneGo (memSt wVstb) (memK wVstb) 0x8A ∧ 1 ≤ wVstb.am ∧ wVstb.am ≤ 3 ∧ 2 = widthBytes wVstb.bwd ∧
    inSpace (memSt wVstb) (memK wVstb) wVstb.am 2 ∧ Became (settleCtx (memSt wVstb) (memK wVstb).x) (memK wVstb).x (memK wVstb).x ∧
    ((settleCtx (memSt wVstb) (memK wVstb).x).core 0).engine = [] ∧
    (∀ p ∈ (settleCtx (memSt wVstb) (memK wVstb).x).cohorts, p.2.grp = 0 → p.2.heldOps = []) :=
  ⟨memGo_of (by decide +kernel), by decide, by decide, below_of (by decide +kernel), ⟨fun h => absurd (by decide) h, fun _ => rfl⟩,
   became_of (by rfl), memGo_of (by decide +kernel), by decide, by decide, ok_get [] (by decide +kernel),
   ⟨fun h => absurd (by decide) h, fun _ => rfl⟩, became_of (by rfl), memGo_of (by decide +kernel), by decide, by decide, by decide,
   below_of (by decide +kernel), became_of (by rfl), by decide +kernel, by decide +kernel⟩

/-- VATOM on 64 bits, in per-lane mode and in the scratchpad: ADD, kind AR at .SYS; and without ordering. -/
def wAtomG : LaneWord := lw 0 10 4 0 12 0x08F
def wAtomR : LaneWord := lw 0 10 4 0 12 0x080
def wAtomL : LaneWord := lw 0 10 4 0 12 0x28F
def piecesA (w : LaneWord) : List Piece := piecesOf (memSt w memC) (memK w) (smOfAm w.am w.aw64) 8 8 .readWrite noAtomics

theorem test_wit_LaneAtomics :
    LaneGo (memSt wAtomG memC) (memK wAtomG) 0x82 ∧ wAtomG.am ≠ 2 ∧ wAtomG.mdn / 4 % 2 = 1 ∧
    allPieces (memSt wAtomG memC) (memK wAtomG) (smOfAm wAtomG.am wAtomG.aw64) 8 8 .readWrite noAtomics = .ok (piecesA wAtomG) ∧
    Released (memSt wAtomG memC) (released (memSt wAtomG memC) 4) (memK wAtomG) (2 ≤ wAtomG.mdn / 4 % 4) (wAtomG.mdn % 4 + 1) ∧
    Became (released (memSt wAtomG memC) 4) (memK wAtomG).x (memK wAtomG).x ∧
    LaneGo (memSt wAtomR) (memK wAtomR) 0x82 ∧ wAtomR.mdn / 4 % 2 = 0 ∧
    Released (memSt wAtomR) (memSt wAtomR) (memK wAtomR) (2 ≤ wAtomR.mdn / 4 % 4) (wAtomR.mdn % 4 + 1) ∧
    Became (memSt wAtomR) (memK wAtomR).x (memK wAtomR).x ∧
    LaneGo (memSt wAtomL memC) (memK wAtomL) 0x82 ∧ wAtomL.am = 2 ∧ inSpace (memSt wAtomL memC) (memK wAtomL) 0 8 ∧
    spaceGood (memK wAtomL) 0 8 ∧
    Released (memSt wAtomL memC) (released (memSt wAtomL memC) 4) (memK wAtomL) (2 ≤ wAtomL.mdn / 4 % 4) (wAtomL.mdn % 4 + 1) ∧
    Became (settleCtx (released (memSt wAtomL memC) 4) (memK wAtomL).x) (memK wAtomL).x (memK wAtomL).x :=
  ⟨memGo_of (by decide +kernel), by decide, by decide, ok_get [] (by decide +kernel),
   ⟨fun h => absurd (by decide) h, fun _ => rfl⟩, became_of (by rfl), memGo_of (by decide +kernel),
   by decide, ⟨fun _ => rfl, fun h => absurd h (by decide)⟩, became_of (by rfl), memGo_of (by decide +kernel), by decide,
   below_of (by decide +kernel), below_of (by decide +kernel), ⟨fun h => absurd (by decide) h, fun _ => rfl⟩, became_of (by rfl)⟩

/-- VRED ADD on 64 bits, VREDO on F32, VLDF and VSTF of 64 bits. -/
def wRed : LaneWord := lw 0 10 4 0 0 0x080
def wRedo : LaneWord := lw 3 10 4 0 12 0
def wFut : LaneWord := lw 0 10 4 0 0 0x01C
def wFil : LaneWord := lw 0 10 4 0 0 0x01D

theorem test_wit_LaneReductions :
    LaneGo (memSt wRed) (memK wRed) 0x83 ∧ laneCodeOf wRed = 0 ∧
    allPieces (memSt wRed) (memK wRed) (smOfAm wRed.am wRed.aw64) 8 8 .readWrite noAtomics =
      .ok (piecesOf (memSt wRed) (memK wRed) (smOfAm wRed.am wRed.aw64) 8 8 .readWrite noAtomics) ∧
    LaneGo (memSt wRedo) (memK wRedo) 0x84 ∧
    allPieces (memSt wRedo) (memK wRedo) (smOfAm wRedo.am wRedo.aw64) 4 4 .readWrite (notLocal (memSt wRedo)) =
      .ok (piecesOf (memSt wRedo) (memK wRedo) (smOfAm wRedo.am wRedo.aw64) 4 4 .readWrite (notLocal (memSt wRedo))) :=
  ⟨memGo_of (by decide +kernel), by decide, ok_get [] (by decide +kernel), memGo_of (by decide +kernel),
   ok_get [] (by decide +kernel)⟩

theorem test_wit_FutureWords :
    LaneGo (memSt wFut) (memK wFut) 0x85 ∧
    allPieces (memSt wFut) (memK wFut) wFut.sm 16 16 .read (fun p => p.mt == 2) =
      .ok (piecesOf (memSt wFut) (memK wFut) wFut.sm 16 16 .read (fun p => p.mt == 2)) ∧
    LaneGo (memSt wFil memC) (memK wFil) 0x86 ∧
    allPieces (memSt wFil memC) (memK wFil) wFil.sm 16 16 .write (fun p => p.mt == 2) =
      .ok (piecesOf (memSt wFil memC) (memK wFil) wFil.sm 16 16 .write (fun p => p.mt == 2)) ∧
    Released (memSt wFil memC) (released (memSt wFil memC) 5) (memK wFil) True (if wFil.ord = 0 then 3 else wFil.ord - 1) ∧
    Became (released (memSt wFil memC) 5) (memK wFil).x (memK wFil).x ∧
    LaneGo (memSt (lw 0 0 4 0 0 1)) (memK (lw 0 0 4 0 0 1)) 0x8B :=
  ⟨memGo_of (by decide +kernel), ok_get [] (by decide +kernel), memGo_of (by decide +kernel), ok_get [] (by decide +kernel),
   ⟨fun h => absurd trivial h, fun _ => rfl⟩, became_of (by rfl), memGo_of (by decide +kernel)⟩

theorem active_of {k : LCtx} {p : Nat → Prop} (h : ∀ l ∈ List.range 32, k.active l = true → p l) : ∀ l, k.active l = true → p l :=
  fun l hl => h l (List.mem_range.mpr (BitVec.lt_of_getLsbD hl)) hl

/-- A SPAWN of the last doubleword of the scratchpad, and a VSPAWN of the doublewords v10:v11 of three lanes, to node 0 of their
own launch. -/
def coSp : Cohort := co0 [(5, 0xFFC00000), (6, 0x1FF8), (7, 8)]
def stSp : State := mk coSp memG
def recSp : Rec :=
  { id := 1, slot := 0, gen := 0, node := 0, scope := 3, depth := 1, handle := 0xFFC0000000000000, payload := bytesAt memG.sp 0x1FF8 8, from_ := 0 }
def wSp : LaneWord := lw 0 10 4 0 0 0x206
def coSv : Cohort :=
  { coW wSp with v := [(160, 0xFFC00000), (161, 0xFFC00000), (191, 0xFFC00000), (320, 0xA1B2C3D4), (321, 5), (351, 0x80), (352, 0x3F800000)] }
def stSv : State := { mk coSv group0 memC with dies := [(0, { pages := [{ id := 0, slot := 0, node := 0 }] })] }
def kSv : LCtx := ⟨cx coSv, block 0 wSp 0x80000003, wSp⟩
def recSv (j l : Nat) : Rec :=
  { id := 1 + j, slot := 0, gen := 0, node := 0, scope := 3, depth := 1, handle := 0xFFC0000000000000,
    payload := (List.range 2).flatMap (fun i => leBytes 4 (kSv.dreg i l).toNat) }

theorem test_wit_SpawnsHandOverTheirRecords_scalar :
    Runs stSp (cx coSp memG) ∧ scalarReady (cx coSp memG) { regs := pairOf 4 ++ [6, 7], reads := pairOf 4 ++ [6, 7], join := true, wr := true } = true ∧
    0x1FF8 = (coSp.reg 6).toNat ∧ 8 = (coSp.reg 7).toNat ∧ 0x1FF8 % 8 = 0 ∧ 0x1FF8 + 8 ≤ (cx coSp memG).node.spsz ∧
    memG.rangeBad 0 0x1FF8 8 = false ∧ release stSp 0 0 0 3 = some (released stSp 3) ∧ Became (released stSp 3) (cx coSp memG) (cx coSp memG) ∧
    spawnCheck stSp (cx coSp memG) (spawnTag (cx coSp memG)).2 (BitVec.ofNat 64 (pairNat coSp 4)) 8 = .ok 1 ∧
    recSp.handle = BitVec.ofNat 64 (pairNat coSp 4) ∧ recSp.tag = (spawnTag (cx coSp memG)).1 ∧ recSp.id = (released stSp 3).fresh ∧
    destOf (released stSp 3) recSp = .die 0 ∧ ((released stSp 3).die 0).parked = [] ∧ roomFor (released stSp 3) recSp (.die 0) [] = true :=
  ⟨⟨rfl, rfl⟩, by decide +kernel, by decide +kernel, by decide +kernel, by decide, by decide +kernel, by decide +kernel, rfl, became_of (by rfl),
   ok_of (by decide +kernel), by decide +kernel, by decide +kernel, by decide +kernel, by decide +kernel, by decide +kernel, by decide +kernel⟩

theorem test_wit_SpawnsHandOverTheirRecords_lanes :
    let r := released stSv 3
    LaneGo stSv kSv 0x87 ∧ (∀ l, kSv.src64 wSp.a l = if wSp.md.getLsbD 9 then kSv.src64 wSp.a l else kSv.src64 wSp.b l) ∧
    (∀ l, kSv.active l = true → spawnCheck stSv kSv.x (laneTag kSv.x l).2 (kSv.src64 wSp.a l) (8 * (wSp.mdn / 16 % 32 + 1)) = .ok 1) ∧
    Released stSv r kSv True (wSp.mdn / 2 % 8) ∧ kSv.act = [0, 1, 31] ∧
    (∀ p ∈ [(0, 0), (1, 1), (2, 31)], (recSv p.1 p.2).id = r.fresh + p.1 ∧ (recSv p.1 p.2).handle = kSv.src64 wSp.a p.2 ∧
      (recSv p.1 p.2).tag = (laneTag kSv.x p.2).1 ∧ (recSv p.1 p.2).scope = wSp.mdn / 2 % 8 ∧ destOf r (recSv p.1 p.2) = .die 0 ∧
      (recSv p.1 p.2).own = true ∧ (recSv p.1 p.2).from_ = 0 ∧ (recSv p.1 p.2).spkg = r.link.pkgid ∧
      handedOver r 0 (recSv p.1 p.2).slot (recSv p.1 p.2).node + 3 ≤ queuePlaces r 0 (recSv p.1 p.2).slot (recSv p.1 p.2).node ∧
      (r.die 0).depth 0 0 + handedOver r 0 0 0 + 3 ≤ (kSv.x.l.node 0).hwm) ∧ (r.die 0).parked = [] ∧ Became r kSv.x kSv.x :=
  ⟨⟨⟨⟨rfl, rfl⟩, rfl⟩, by decide +kernel, fun _ => rfl⟩, fun _ => rfl,
   active_of (fun l hl ha => ok_of ((by decide +kernel : ∀ l ∈ List.range 32, kSv.active l = true →
     (spawnCheck stSv kSv.x (laneTag kSv.x l).2 (kSv.src64 wSp.a l) (8 * (wSp.mdn / 16 % 32 + 1))).toOption = some 1) l hl ha)),
   ⟨fun h => absurd trivial h, fun _ => rfl⟩, by decide +kernel, by decide +kernel, by decide +kernel, became_of (by rfl)⟩

/-- Operations of 16 rows whose C starts in one 4 KiB region of CBUF and ends in the next: an MMA and an MMAS of F16 on 16 columns
and K = 24, an MRES of two entries. -/
def coOp (s19 : Word) : Cohort := co0 [(17, 48), (19, s19), (20, 3584), (21, 64)]
def opOf (co : Cohort) (opc : Nat) (ext : Word) : MatOp :=
  { c := 0, opc := opc, ext := ext, ix := 0, batch := 1, regs := (pairOf 16 ++ pairOf 18 ++ pairOf 20).map co.reg }

def useOp (len : Nat) : Use :=
  { regs := pairOf 16 ++ pairOf 18 ++ pairOf 20, reads := pairOf 16 ++ pairOf 18 ++ pairOf 20, len := len }

theorem test_wit_MatrixOperationsEnterTheirEngine :
    ∀ p ∈ [((48 : Word), 0x50, (0x00101000 : Word), 2), (0x01000010, 0x51, 0x00101200, 2), (2, 0x52, 0, 1)],
      Runs (mk (coOp p.1)) (cx (coOp p.1)) ∧
      scalarReady (cx (coOp p.1)) (useOp p.2.2.2) = true ∧ (coOp p.1).heldOps = [] ∧ opFault (cx (coOp p.1)).node (opOf (coOp p.1) p.2.1 p.2.2.1) = none ∧
      ((mk (coOp p.1)).core 0).engine.length < Config.engineOps ∧ (coOp p.1).openOps % 256 = 0 ∧ (coOp p.1).lcom + 1 = 1 := by
  intro p hp
  have h := (by decide +kernel : ∀ p ∈ [((48 : Word), 0x50, (0x00101000 : Word), 2), (0x01000010, 0x51, 0x00101200, 2), (2, 0x52, 0, 1)],
      scalarReady (cx (coOp p.1)) (useOp p.2.2.2) = true ∧ (coOp p.1).heldOps = [] ∧ opFault (cx (coOp p.1)).node (opOf (coOp p.1) p.2.1 p.2.2.1) = none ∧
      ((mk (coOp p.1)).core 0).engine.length < Config.engineOps ∧ (coOp p.1).openOps % 256 = 0 ∧ (coOp p.1).lcom + 1 = 1)
  exact ⟨⟨rfl, rfl⟩, h p hp⟩

/-- A cohort with a batch open and one not complete: s7 names a complete one. -/
def coBt : Cohort := { co0 [(7, 4)] with lcom := 5, lcpl := 4, frep := some (5, 7, 300) }
def coHeld : Cohort := { coBt with heldOps := [opOf (coOp 48) 0x50 0x00101000] }

theorem test_wit_BatchInstructionsComplete :
    Runs (mk coBt) (cx coBt) ∧ scalarReady (cx coBt) { regs := [63] } = true ∧ coBt.heldOps = [] ∧
    (coBt.lcom - coBt.lcpl).toNat < Config.openBatches ∧ scalarReady (cx coBt) { regs := [7], reads := [7] } = true ∧
    (4 : Word) = (if (coBt.lcom - coBt.reg 7).toInt < 0 then coBt.lcom else coBt.reg 7) ∧ 0 ≤ (coBt.lcpl - 4).toInt ∧
    (∀ f ∈ coBt.frep, (4 - f.1).toInt < 0) ∧ scalarReady (cx coBt) { join := true } = true ∧ Runs (mk coHeld) (cx coHeld) ∧
    scalarReady (cx coHeld) {} = true ∧ ((mk coHeld).core 0).engine.length + coHeld.heldOps.length ≤ Config.engineOps ∧
    scalarReady (cx coBt) (useOf 63 []) = true ∧ (co0 []).frep = none ∧ coBt.frep = some (5, 7, 300) :=
  ⟨⟨rfl, rfl⟩, by decide +kernel, rfl, by decide +kernel, by decide +kernel, by decide +kernel, by decide +kernel, by decide +kernel,
   by decide +kernel, ⟨rfl, rfl⟩, by decide +kernel⟩

/-- A loader at 0x7FC that runs: x5 and x6 hold the first and the last doubleword of its data RAM, and the last is reserved. -/
def grv : Group :=
  { group0 with loader := {
      mode := .running, x := [(5, 0x10000), (6, 0x13FF8), (7, 0x1234)], pc := 0x7FC, rowsel := 5, lr := some (0x13FF8, 8),
      dram := writeCells [] (cellsOf 0x3FF8 (leBytes 8 0x8182838485868788)) } }
def runRv (g : Group) (co : Cohort := co0 []) : State := { mk co g with cur := .rv 0 false }
def kRv (g : Group) : RvCtx := ⟨0, false, g, launch0, g.loader⟩

theorem test_wit_LoaderInstructionsTakeEffect :
    RvRuns (runRv grv) (kRv grv) ∧ (31 : BitVec 6).toNat < 32 ∧
    (∀ w ∈ rvWidths, rvAddr (kRv grv) 6 0 % w.2 = 0 ∧ inRam (rvAddr (kRv grv) 6 0) w.2 ∧ rvAddr (kRv grv) 0 0x7F8 % w.2 = 0 ∧
      inRom (rvAddr (kRv grv) 0 0x7F8) w.2) ∧
    (8 = if true then 8 else 4) ∧ 0x13FF8 = ((kRv grv).r.xreg 6).toNat ∧ 0x13FF8 % 8 = 0 ∧ inRam 0x13FF8 8 ∧
    (kRv grv).r.lr = some (0x13FF8, 8) ∧ 0x10000 = ((kRv grv).r.xreg 5).toNat ∧ 0x10000 % 4 = 0 ∧ inRam 0x10000 4 ∧
    (kRv grv).r.lr ≠ some (0x10000, 4) ∧ RvCsr.rs ≠ .rw ∧ (7 : XReg) ≠ 0 := by
  refine ⟨⟨rfl, rfl, rfl⟩, ?_, ?_, ?_, ?_, ?_, ?_, rfl, ?_, ?_, ?_, ?_, ?_, ?_⟩ <;> try simp only [inRam, inRom]
  all_goals decide +kernel

/-- The descriptor of four rows of 64 bytes, from 0x10000 to 0x1000 of the scratchpad, that counts on the last object there; a
misaligned one; and a loader whose x5 names it at the end of the data RAM, n slots of its queue full. -/
def descT (ga be : Nat) : Nat :=
  ga + 64 * 2 ^ 128 + 0x1000 * 2 ^ 192 + 64 * 2 ^ 224 + 63 * 2 ^ 256 + 3 * 2 ^ 272 + be * 2 ^ 290 + be * 2 ^ 291 + 255 * 2 ^ 292
def queued (n : Nat) : List (Nat × TileCmd) :=
  (List.range n).map (fun i => (i, { desc := BitVec.ofNat 512 (descT 0x10000 0), ticket := BitVec.ofNat 64 (i + 1), kind := 0 }))
def tileRv (d n : Nat) : RvCore :=
  { mode := .running, x := [(5, 0x13FC0)], pc := 0x7FC, tqtick := BitVec.ofNat 64 (n + 1), fnext := 1, slots := queued n,
    dram := writeCells [] (cellsOf 0x3FC0 (leBytes 64 d)) }
def gTile (d n : Nat) (st : Bool := false) : Group :=
  writeBar (group0.setRv st (tileRv d n)) 0x1FE0 ⟨4, 2, 1, 8, 8, 0, 0, 0, 0, 1, 1⟩
def stTile (d n : Nat) (st : Bool := false) : State := { mk (co0 []) (gTile d n st) with cur := .rv 0 st }
def kTile (d n : Nat) (st : Bool := false) : RvCtx := ⟨0, st, gTile d n st, launch0, (gTile d n st).rv st⟩

theorem test_wit_TileInstructionsIssueCommands :
    (∀ p ∈ tileForms, ∃ st, RvRuns (stTile (descT 0x10000 1) 7 st) (kTile (descT 0x10000 1) 7 st) ∧
      issueReady (kTile (descT 0x10000 1) 7 st) 5 p.2.2) ∧
    (∀ m ∈ List.range 8, lookup (kTile (descT 0x10000 1) 8).r.slots m ≠ none) ∧ freeSlotOf (kTile (descT 0x10000 1) 7) 7 ∧
    tileFault node0 (newCmd (kTile (descT 0x10008 0) 7) 5 0) = some 3 ∧ tileFault node0 (newCmd (kTile (descT 0x10000 0) 7) 5 0) = none ∧
    ((newCmd (kTile (descT 0x10000 0) 7) 5 0).be && (newCmd (kTile (descT 0x10000 0) 7) 5 0).exp) = false ∧
    tileFault node0 (newCmd (kTile (descT 0x10000 1) 7) 5 0) = none ∧
    ((newCmd (kTile (descT 0x10000 1) 7) 5 0).be && (newCmd (kTile (descT 0x10000 1) 7) 5 0).exp) = true ∧
    barOpen (stTile (descT 0x10000 1) 7) (kTile (descT 0x10000 1) 7) (newCmd (kTile (descT 0x10000 1) 7) 5 0) ∧
    (readBar (gTile (descT 0x10000 1) 7) (newCmd (kTile (descT 0x10000 1) 7) 5 0).boff).expb +
      (newCmd (kTile (descT 0x10000 1) 7) 5 0).total < 2 ^ 32 := by
  refine ⟨fun p hp => ?_, ?_, ?_, ?_, ?_, ?_, ?_, ?_, ?_, ?_⟩
  · simp only [tileForms, List.mem_cons, List.mem_nil_iff, or_false] at hp
    rcases hp with rfl | rfl | rfl | rfl | rfl | rfl <;>
      first
        | exact ⟨false, ⟨rfl, rfl, rfl⟩, by unfold issueReady inRam; decide +kernel⟩
        | exact ⟨true, ⟨rfl, rfl, rfl⟩, by unfold issueReady inRam; decide +kernel⟩
  all_goals try unfold freeSlotOf
  all_goals try unfold barOpen
  all_goals decide +kernel

/-- Queues with stopped commands, a running one, and one that owes 256 bytes. -/
def cmdQ (n st owed : Nat) : TileCmd :=
  { desc := BitVec.ofNat 512 (descT 0x10000 1), ticket := BitVec.ofNat 64 n, kind := 0, st := st, fcode := 6, owed := owed }
def gQueue (sl : List (Nat × TileCmd)) : Group :=
  writeBar { group0 with loader := { mode := .running, x := [(5, 0x1FE0), (6, 3)], pc := 0x7FC, tqtick := 9, slots := sl } } 0x1FE0
    ⟨4, 2, 1, 264, 8, 0, 0, 0, 0, 1, 1⟩

theorem test_wit_QueueInstructionsTakeEffect :
    (∀ sl ∈ [[], [(1, cmdQ 3 3 0), (2, cmdQ 2 3 0), (5, cmdQ 4 2 0)], [(5, cmdQ 3 3 0)], [(5, cmdQ 3 2 256)]],
      RvRuns (runRv (gQueue sl)) (kRv (gQueue sl))) ∧
    (∀ p ∈ [(1, cmdQ 3 3 0), (2, cmdQ 2 3 0), (5, cmdQ 4 2 0)], p.2.ticket.toNat ≤ ((kRv (gQueue [])).r.xreg 6).toNat → p.2.st = 3) ∧
    (∀ p ∈ ([] : List (Nat × TileCmd)), ((kRv (gQueue [])).r.xreg 6).toNat < p.2.ticket.toNat) ∧ (cmdQ 2 3 0).ticket ≠ 0 ∧
    (∀ q ∈ [(1, cmdQ 3 3 0), (2, cmdQ 2 3 0), (5, cmdQ 4 2 0)], (cmdQ 2 3 0).ticket.toNat ≤ q.2.ticket.toNat) ∧
    (∀ p ∈ [(5, cmdQ 4 2 0)], p.2.ticket ≠ (kRv (gQueue [])).r.xreg 6) ∧ (cmdQ 3 3 0).ticket = (kRv (gQueue [])).r.xreg 6 ∧
    (cmdQ 3 2 256).st ≠ 3 ∧ (cmdQ 3 3 0).atIssue = false ∧ (cmdQ 3 3 0).owed = 0 ∧ (cmdQ 3 2 256).owed ≠ 0 ∧
    (cmdQ 3 2 256).early = [] ∧ (cmdQ 3 2 256).out = [] ∧ barOpen (runRv (gQueue [(5, cmdQ 3 2 256)])) (kRv (gQueue [(5, cmdQ 3 2 256)])) (cmdQ 3 2 256) ∧
    (∀ p ∈ [(5, cmdQ 3 3 0)], p.2.st = 3 ∧ p.2.owed = 0) ∧ (∃ p ∈ (runRv (gQueue [])).cohorts, p.2.grp = 0 ∧ p.2.ended = false) :=
by
  refine ⟨fun _ _ => ⟨rfl, rfl, rfl⟩, by decide +kernel, by decide, by decide +kernel, by decide +kernel, by decide +kernel,
    by decide +kernel, ?_⟩
  simp only [barOpen]; decide +kernel

theorem test_wit_LoadersUseBarrierObjects :
    let k := kRv (gQueue [])
    RvRuns (runRv (gQueue [])) k ∧ k.g.rangeBad 0 0x1FE0 32 = false ∧ k.g.portOpen 0x1FE0 (runRv (gQueue [])).clk 0x6000 = true ∧ 0x1FE0 = (k.r.xreg 5).toNat % 2 ^ 18 ∧ 0x1FE0 % 32 = 0 ∧ 0x1FE0 + 32 ≤ (k.l.node k.g.node).spsz ∧
    ¬ ((readBar k.g 0x1FE0).arr = (readBar k.g 0x1FE0).expa ∧ (readBar k.g 0x1FE0).landb < (readBar k.g 0x1FE0).expb) ∧
    (readBar k.g 0x1FE0).expb + (BitVec.ofNat 32 (k.r.xreg 6).toNat).toNat < 2 ^ 32 ∧
    phasePast (readBar k.g 0x1FE0).phase (BitVec.ofNat 32 (k.r.xreg 6).toNat) ∧
    ¬ phasePast (readBar k.g 0x1FE0).phase (BitVec.ofNat 32 (k.r.xreg 5).toNat) := by
  refine ⟨⟨rfl, rfl, rfl⟩, ?_⟩
  simp only [phasePast]
  decide +kernel

/-- A cohort with exports, with a scalar and a lane result on their way, and with an answered VLDF of two lanes. -/
def pendS (path : Path) : Pending := { tag := 4, scalar := true, regs := [62, 63], vals := [(62, 1), (63, 2)], path := path }
def pendV : Pending := { tag := 5, scalar := false, regs := [9], vals := [(288, 1), (319, 2)] }
def pendF (st : Nat) : Pending :=
  { tag := 6, scalar := false, regs := [253, 254, 255], future := true, lanes := [0, 31], dreg := 253, w64 := true,
    answer := some (st, 0x1122334455667788) }
def coPend (path : Path) : Cohort := { co0 [] with pend := [pendV, pendS path, pendF 0, pendF 2], exports := [⟨63, 5, true, 1⟩, ⟨3, 1, false, 1⟩] }
def coPark (p : Park) : Cohort := { co0 [] with park := some p, fault := some { code := 6 }, lcpl := 3 }
def gBar4 : Group := writeBar group0 0x40 ⟨4, 2, 1, 8, 8, 0, 0, 0, 0, 1, 1⟩
def coWaited : Cohort := { co0 [] with waitS := 16384, waitL := 16384 }
def coFault : Cohort := { co0 [(48, 3)] with fault := some ⟨3, 0, 0x80, 2, 7, 8⟩ }

theorem test_wit_WhatComesBackToACohort :
    (coPend .core).exports = [⟨63, 5, true, 1⟩, ⟨3, 1, false, 1⟩] ∧ Returns (mk (coPend .core)) (cx (coPend .core)) 0 pendV ∧
    Returns (mk (coPend .slice)) (cx (coPend .slice)) 1 (pendS .slice) ∧ (pendS .slice).path ≠ .system ∧
    Returns (mk (coPend .system)) (cx (coPend .system)) 1 (pendS .system) ∧ pendV.future = false ∧ pendV.waits = 0 ∧
    Returns (mk (coPend .core)) (cx (coPend .core)) 2 (pendF 0) ∧ Returns (mk (coPend .core)) (cx (coPend .core)) 3 (pendF 2) ∧
    (pendF 0).answer = some (0, 0x1122334455667788) ∧ (∀ l ∈ (pendF 0).lanes, l < 32) ∧
    (∀ p ∈ [Park.results, .barrier 0x40 3, .batch 3, .page [1]], ctxOf (mk (coPark p) gBar4) 0 = some (cx (coPark p) gBar4) ∧
      waitEnded (mk (coPark p) gBar4) (cx (coPark p) gBar4)) ∧
    Config.starvationClk ≤ coWaited.waitS ∧ Config.starvationClk ≤ coWaited.waitL ∧ coWaited.liftS = false ∧ coWaited.liftL = false := by
  refine ⟨rfl, ⟨rfl, rfl, rfl, rfl, rfl⟩, ⟨rfl, rfl, rfl, rfl, rfl⟩, by decide, ⟨rfl, rfl, rfl, rfl, rfl⟩, rfl, rfl,
    ⟨rfl, rfl, rfl, rfl, rfl⟩, ⟨rfl, rfl, rfl, rfl, rfl⟩, rfl, by decide, fun p hp => ⟨rfl, ?_⟩, by decide, by decide, rfl, rfl⟩
  simp only [List.mem_cons, List.mem_nil_iff, or_false] at hp
  rcases hp with rfl | rfl | rfl | rfl
  · exact .inl ⟨rfl, fun _ h => nomatch h⟩
  · exact .inr (.inl ⟨0x40, 3, rfl, by simp only [phasePast]; decide +kernel⟩)
  · exact .inr (.inr (.inl ⟨3, rfl, by decide⟩))
  · exact .inr (.inr (.inr ⟨[1], rfl, fun _ h => nomatch h⟩))

theorem test_wit_WhatComesBackToACohort_traps :
    let s := withHandler (withMate (mk coFault) (mate coR))
    let r := withMate (mk (coPark .handler)) (mate (coPark .handler))
    ctxOf r 0 = some (cx (coPark .handler)) ∧
    (∀ p ∈ r.cohorts, p.1 ≠ 0 → p.2.grp = 0 →
      (p.2.handler = false ∨ p.2.ended = true) ∧ (p.2.park = some .handler → (coPark .handler).ix ≤ p.2.ix)) ∧
    ctxOf s 0 = some (cx coFault) ∧ coFault.fault = some ⟨3, 0, 0x80, 2, 7, 8⟩ ∧ coFault.park = none ∧ coFault.halted = false ∧ coFault.laneIdle = true ∧
    nothingSent s (cx coFault) ∧ (s.tenant 0).thctl.getLsbD 16 = true ∧ (s.tenant 0).thctl.toNat % 65536 ≠ 0 ∧
    (∀ p ∈ s.cohorts, p.1 ≠ 0 → p.2.grp = 0 → p.2.handler = false ∧ p.2.park ≠ some .handler) := by
  refine ⟨rfl, ?_, rfl, rfl, rfl, rfl, ?_, ?_, ?_⟩ <;> try simp only [nothingSent, nothingOut]
  all_goals decide +kernel

/-- A core with a store of the last bytes of one line and the first of the next, behind one to another line, and, in a package that
is number 4 of a domain, one to package 5. -/
def cellsW : List Host.Cell := cellsOf 0x1003E (leBytes 4 0x0A0B0C0D)
def storeW (cs : List Host.Cell) : StoreReq := ⟨0, 3, cs, false, 0, 0, false, none⟩
def farPa (off : Nat) : Nat := 2 * 2 ^ 50 + 5 * 2 ^ 40 + off
def inDomain (s : State) : State := { s with link := { len := true, pkgid := 4, portup := 1, dommap := [(0, 0x20)] } }
def stWrite (cs : List Host.Cell) : State := inDomain (mk (co0 []) group0 { core0 with stores := [storeW (cellsOf 0x10010 [1]), storeW cs] })
/-- Atomics, reductions and keyed additions on the last doubleword of a 4 KiB block. -/
def atomQ (code : Nat) (w : Bool) : AtomReq :=
  { c := 0, tag := 5, t := 0, pa := 0x10FF8, va := 0xFF8, code := code, w64 := w, a := 1, b := 2, keys := if w then [288, 320] else [288] }
def redQ (code : Nat) (w : Bool) : RedReq := ⟨0, 0, 0x10FF8, code, w, 1, 1⟩
def stAtom (code : Nat) (w : Bool) : State := mk (co0 []) group0 { core0 with atoms := [atomQ code w] }
def stRed (code : Nat) (w : Bool) : State := mk (co0 []) group0 { core0 with reds := [redQ code w] }
/-- A reduction at package 5, behind a store that does not name its granule. -/
def redFar : RedReq := ⟨0, 3, farPa 0x1F8, 0, true, 1, 1⟩
def stFar : State := inDomain (mk (co0 []) group0 { core0 with stores := [storeW (cellsOf (farPa 0x3E) (leBytes 4 0x0A0B0C0D))], reds := [redFar] })

theorem test_wit_RequestsArePerformedAtTheirTargets_words :
    (∀ cs ∈ [cellsW, cellsOf (farPa 0x3E) (leBytes 4 0x0A0B0C0D), cellsOf (2 ^ 50 + 0x3E) (leBytes 4 7)],
      ((stWrite cs).core 0).stores[1]? = some (storeW cs) ∧ (storeW cs).cells ≠ [] ∧ (storeW cs).fill = false ∧
      earlierFollows (stWrite cs) (((stWrite cs).core 0).stores.take 1) (storeW cs) = false) ∧
    plainTarget (stWrite cellsW) (storePas (storeW cellsW)) ∧
    placeOf (stWrite []) (storePa (storeW (cellsOf (2 ^ 50 + 0x3E) (leBytes 4 7)))) = .system ∧
    (∀ c ∈ cellsOf (2 ^ 50 + 0x3E) (leBytes 4 7), (stWrite []).badLines.contains (c.1 / 64) = false) ∧
    placeOf (stWrite []) (storePa (storeW (cellsOf (farPa 0x3E) (leBytes 4 0x0A0B0C0D)))) = .remote 5 ∧
    toRemote (stWrite []) (storeW (cellsOf (farPa 0x3E) (leBytes 4 0x0A0B0C0D))) = true ∧
    (∀ c ∈ cellsOf (farPa 0x3E) (leBytes 4 0x0A0B0C0D), (stWrite []).badLines.contains (c.1 / 64) = false) ∧
    cutOff (stWrite []) (farPa 0x3E) = false ∧ ((stWrite []).tenant 3).tlref ≠ 0xFFFFFFFF ∧
    (stFar.core 0).reds[0]? = some redFar ∧ remotePa stFar redFar.pa = true ∧ (stFar.tenant 3).tlref ≠ 0xFFFFFFFF ∧
    redWaits stFar (stFar.core 0) redFar = false ∧
    (∀ p ∈ atomForms, ∀ w, ((stAtom p.1 w).core 0).atoms[0]? = some (atomQ p.1 w) ∧ ((stRed p.1 w).core 0).reds[0]? = some (redQ p.1 w) ∧
      plainTarget (stAtom p.1 w) (span 0x10FF8 (if w then 8 else 4)) ∧ plainTarget (stRed p.1 w) (span 0x10FF8 (if w then 8 else 4)) ∧
      mustWait (stAtom p.1 w) ((stAtom p.1 w).core 0) 0 0 5 (span 0x10FF8 (if w then 8 else 4)) true = false ∧
      redWaits (stRed p.1 w) ((stRed p.1 w).core 0) (redQ p.1 w) = false) := by
  and_intros
  all_goals first
    | decide +kernel
    | (simp only [plainTarget]; decide +kernel)

/-- A future cell of which two requests of one cohort are held at its slice, a VSTF to it, and a request on its way to it. -/
def futQ (tag pa : Nat) : FutReq := { c := 0, tag := tag, pa := pa, w64 := true, scope := 3, at_ := 0 }
def fillQ : StoreReq := ⟨0, 0, cellsOf 0x100F0 (leBytes 16 (77 + 2 ^ 64)), true, 0, 0, false, none⟩
def stFut (held : List FutReq) (m : List Host.Cell) : State :=
  { mk (co0 []) group0 { core0 with stores := [fillQ], freqs := [futQ 1 0x100F0] } with
      mem := m, slices := [(homeSlice 0x100F0, { held := held })] }
def heldTwo : List FutReq := [futQ 1 0x100F0, futQ 2 0x100F0, futQ 2 0x100E0]
def fullCell : List Host.Cell := writeCells [] fillQ.cells

theorem test_wit_RequestsArePerformedAtTheirTargets_futures :
    ((stFut heldTwo []).core 0).stores[0]? = some fillQ ∧ fillQ.cells = cellsOf 0x100F0 (leBytes 16 ((77 : Dword).toNat + 2 ^ 64)) ∧
    0x100F0 % 16 = 0 ∧ placeOf (stFut heldTwo []) 0x100F0 = .hbm ∧ homeReady (stFut heldTwo []) 0x100F0 = true ∧
    (stFut heldTwo []).badLines.contains (0x100F0 / 64) = false ∧
    earlierFollows (stFut heldTwo []) (((stFut heldTwo []).core 0).stores.take 0) fillQ = false ∧
    mustWait (stFut [] fullCell) ((stFut [] fullCell).core 0) 0 0 1 (span 0x100F0 16) false = false ∧
    (∀ q ∈ ((stFut heldTwo []).slice (homeSlice 0x100F0)).held, q.pa % 16 = 0 ∧ q.pkg = none) ∧ ((stFut heldTwo []).tenant 0).trctl.getLsbD 0 = false ∧
    ((stFut [] fullCell).core 0).freqs[0]? = some (futQ 1 0x100F0) ∧ ctxOf (stFut [] fullCell) 0 = some (cx (co0 [])) ∧
    rangeBad (stFut [] fullCell) 0x100F0 16 = false ∧ cellState (stFut [] fullCell) 0x100F0 ≠ 0 ∧ cellState (stFut [] []) 0x100F0 = 0 ∧
    ((stFut [] []).slice (homeSlice 0x100F0)).held.length < Config.deferralEntries ∧
    Config.deferralEntries ≤ ((stFut ((List.range 256).map (fun i => futQ i 0x200F0)) []).slice (homeSlice 0x100F0)).held.length :=
  ⟨rfl, rfl, by decide, by decide +kernel, by decide +kernel, by decide +kernel, by decide +kernel, by decide +kernel, by decide +kernel,
   by decide +kernel, rfl, rfl,
   by decide +kernel, by decide +kernel, by decide +kernel, by decide +kernel, by decide +kernel⟩

/-- Keyed additions on their way, and one at a slice for which a REDFLUSH waits; a tenant whose window is the first MiB. -/
def redoQ (slot : Nat) : RedoEntry := { c := 0, slot := slot, pa := 0x100F0, ty := 0, key := 0, val := 0x3F800000 }
def flushPkt : WinPkt := { id := 1, num := 0, bytes := [], state := .flushing 0 [homeSlice 0x100F0, 319] }
def tenantW : Tenant := { txwb := [(0, 3)], txwl := [(0, 0xF0000)] }
def stRedo : State :=
  { mk (co0 []) group0 { core0 with redos := [redoQ 0] } with
      tenants := [(0, tenantW)], slices := [(homeSlice 0x100F0, { redo := [redoQ 0] })], queues := [(0, { window := [flushPkt] })] }

theorem test_wit_RequestsArePerformedAtTheirTargets_reductions :
    (stRedo.core 0).redos[0]? = some (redoQ 0) ∧ lookup stRedo.launches 0 = some launch0 ∧ homeReady stRedo 0x100F0 = true ∧
    (stRedo.slice (homeSlice 0x100F0)).redo.length < Config.redoEntries ∧ flushWanted stRedo (homeSlice 0x100F0) 0 = true ∧
    (stRedo.slice (homeSlice 0x100F0)).redo.filter (fun e => e.slot == 0) = [redoQ 0] ∧ (stRedo.tenant 0).area = none ∧
    plainTarget stRedo ((List.range 4).map (0x100F0 + ·)) ∧ inWritableWindow (stRedo.tenant 0) 0x100F0 4 = true := by
  refine ⟨rfl, rfl, ?_⟩
  simp only [plainTarget]
  decide +kernel

/-- A command in slot 2 whose rows end at the end of the page at 0, its last row the open one; its loader or storer; and the same
where the page is one of another package. -/
def cmdR (kind st rowdone ga : Nat) : TileCmd :=
  { desc := BitVec.ofNat 512 (descT ga 1), ticket := 3, kind := kind, st := st, rowdone := rowdone, owed := 64 }
def gRow (c : TileCmd) (st : Bool := false) : Group :=
  writeBar (group0.setRv st { mode := .running, slots := [(2, c)] }) 0x1FE0 ⟨4, 2, 1, 264, 8, 0, 0, 0, 0, 1, 1⟩
def stRow (c : TileCmd) (st : Bool := false) (C : Core := memC) : State := mk (co0 []) (gRow c st) C
def kRow (c : TileCmd) (st : Bool := false) : RvCtx := ⟨0, st, gRow c st, launch0, (gRow c st).rv st⟩
def pageR : TlbEntry := ⟨0, 0, 16, farPa 0x10000, 0x1F, true⟩

theorem test_wit_TileCommandsRunRowByRow :
    let c1 := cmdR 0 1 0 0xFF00
    let cL := cmdR 0 2 3 0xFF00
    let cS := cmdR 4 2 3 0xFF00
    let cF := cmdR 0 2 3 0xFF08
    let sR := inDomain (stRow cL false { core0 with tlb := [pageR] })
    CmdAt (stRow c1) (kRow c1) 2 c1 ∧ c1.st = 1 ∧
    (∀ p ∈ (kRow c1).r.slots, (p.2.st = 1 → c1.ticket.toNat ≤ p.2.ticket.toNat) ∧ c1.fwait.toNat ≤ p.2.ticket.toNat) ∧
    CmdAt (stRow cL) (kRow cL) 2 cL ∧ cL.spc = 0 ∧ cL.rowdone < cL.nrows ∧ cmdWaits (stRow cL) (kRow cL) cL = false ∧
    tileRead (stRow cL) (kRow cL) (cL.rowA cL.rowdone) cL.rowb 16 = .ok [(0x1FFC0, cL.rowb)] ∧
    storesOff (stRow cL) 0 (span 0x1FFC0 cL.rowb) = true ∧ barOpen (stRow cL) (kRow cL) cL ∧ barOpen (stRow cS true) (kRow cS true) cS ∧
    (readBar (gRow cL) cL.boff).landb + cL.rowb ≤ (readBar (gRow cL) cL.boff).expb ∧
    CmdAt (stRow cS true) (kRow cS true) 2 cS ∧ cmdWaits (stRow cS true) (kRow cS true) cS = false ∧
    tileXlat (stRow cS true) (kRow cS true) (cS.rowA cS.rowdone) cS.rowb 16 .write = .ok [(0x1FFC0, cS.rowb)] ∧
    localFault (stRow cS true) (kRow cS true) cS.spc (cS.lo + cS.rowdone * cS.ls) cS.rowb = none ∧
    storesOff (stRow cS true) 0 (span 0x1FFC0 cS.rowb) = true ∧ plainTarget (stRow cS true) (span 0x1FFC0 cS.rowb) ∧
    CmdAt (stRow cF) (kRow cF) 2 cF ∧ cmdWaits (stRow cF) (kRow cF) cF = false ∧
    rowFault (stRow cF) (kRow cF) cF cF.rowdone = some (faultAt 3 0xFFC8) ∧
    CmdAt sR (kRow cL) 2 cL ∧ cmdWaits sR (kRow cL) cL = false ∧
    tileRead sR (kRow cL) (cL.rowA cL.rowdone) cL.rowb 16 = .ok [(farPa 0x1FFC0, cL.rowb)] ∧ placeOf sR (farPa 0x1FFC0) = .remote 5 ∧
    (∀ k ∈ [0, 4], CmdAt (stRow (cmdR k 2 4 0xFF00)) (kRow (cmdR k 2 4 0xFF00)) 2 (cmdR k 2 4 0xFF00)) ∧
    (cmdR 4 2 4 0xFF00).nrows ≤ (cmdR 4 2 4 0xFF00).rowdone ∧
    (readBar (gRow cS) cS.boff).landb + cS.total ≤ (readBar (gRow cS) cS.boff).expb := by
  refine ⟨⟨rfl, rfl, rfl⟩, rfl, ?_, ⟨rfl, rfl, rfl⟩, ?_, ?_, ?_, ok_of ?_, ?_, ?_, ?_, ?_, ⟨rfl, rfl, rfl⟩, ?_, ok_of ?_, ?_, ?_, ?_,
    ⟨rfl, rfl, rfl⟩, ?_, ?_, ⟨rfl, rfl, rfl⟩, ?_, ok_of ?_, ?_, fun _ _ => ⟨rfl, rfl, rfl⟩, ?_, ?_⟩ <;>
    try simp only [storesOff, barOpen, plainTarget, span]
  all_goals decide +kernel

/-- An MMA on I8 of one K-group that clears C, before and after its last step, one that has waited, and its cohort's batch. -/
def coEng : Cohort := { co0 [(17, 16), (19, 16), (20, 0), (21, 64)] with lcom := 3, lcpl := 2, bflags := [(3, 1), (3, 4), (4, 2)], locks := [(3, 0), (4, 1)] }
def opI8 (mb since : Nat) (bad : Option Nat := none) : MatOp :=
  { opOf coEng 0x50 0x000C9000 with batch := 4, mb := mb, since := since, bad := bad }
def stEng (e : List MatOp) : State :=
  mk coEng { group0 with ab := writeCells [] (cellsOf 0xF0 (leBytes 16 0x80FF)), wb := writeCells [] (cellsOf 0 (leBytes 16 0x7F80)) }
    { core0 with engine := e }

theorem test_wit_TheMatrixEngineRunsItsOperations :
    let s := stEng [opI8 0 0]
    let x := cx coEng { group0 with ab := writeCells [] (cellsOf 0xF0 (leBytes 16 0x80FF)), wb := writeCells [] (cellsOf 0 (leBytes 16 0x7F80)) }
    EngineHas s 0 x (opI8 0 0) ∧ (opI8 0 0).opc ≠ 0x52 ∧ rangesBad x.g (stepRanges (opI8 0 0) ++ stepCRanges (opI8 0 0)) = none ∧
    (opI8 0 0).at_ = 4 ∧ (opI8 0 0).zeroC = true ∧ (opI8 0 0).g = 0 ∧ (opI8 0 0).seen = [] ∧ (opI8 0 0).old = [] ∧
    opFault x.node (opI8 0 0) = none ∧ ((stEng [opI8 0 65536]).core 0).engine[0]? = some (opI8 0 65536) ∧ (opI8 0 65536).finished = false ∧
    Config.longClk ≤ (opI8 0 65536).since ∧ ((stEng [opI8 0 65536]).core 0).running ≠ some 0 ∧
    (∀ b ∈ [none, some 7], ((stEng [opI8 0 0, opI8 1 0 b, opI8 0 0]).core 0).engine = [opI8 0 0] ++ opI8 1 0 b :: [opI8 0 0] ∧
      (∀ q ∈ [opI8 0 0], q.finished = false) ∧ (opI8 1 0 b).finished = true) ∧ coEng.frep = none ∧
    coEng.lcom ≠ coEng.lcpl ∧ (3 : Word) = coEng.lcpl + 1 ∧ (∀ q ∈ (s.core 0).engine, q.c = 0 → q.batch ≠ 3) ∧
    (∀ q ∈ coEng.heldOps, q.batch ≠ 3) := by
  refine ⟨⟨rfl, rfl, rfl, ?_⟩, ?_⟩ <;> decide +kernel

/-- Tables of four levels for an address, whose leaf is the last page of the window of tenant 0. -/
def vaW : Nat := 0xABCDEF012345678
def tblW (l : Nat) : Nat := 0x20000 + 0x4000 * (3 - l)
def pteW (l : Nat) : Nat := if l = 0 then 0xF0000 + 0x1F else tblW (l - 1) + 1
def atW (l : Nat) : Nat := tblW l + vaW / 2 ^ (16 + 11 * l) % 2 ^ 11 * 8
def stWalk : State :=
  { mk (co0 []) with
      tenants := [(0, { tenantW with txroot := 0x20000 })],
      mem := writeCells [] ((List.range 4).flatMap (fun l => cellsOf (atW l) (leBytes 8 (pteW l)))) }
def leafW : TlbEntry := ⟨0, vaW / 65536 * 65536, 16, 0xF0000, BitVec.ofNat 64 (pteW 0), true⟩

theorem test_wit_TranslationEventsTakeEffect_walks :
    (stWalk.die 0).tables = [] ∧ vaW < 2 ^ 60 ∧ tblW 3 = (stWalk.tenant 0).txroot.toNat / 2 ^ 14 % 2 ^ 38 * 2 ^ 14 ∧
    (∀ l, l < 4 → atW l = tblW l + vaW / 2 ^ (16 + 11 * l) % 2 ^ 11 * 8 ∧ inWindow (stWalk.tenant 0) (atW l) 8 = true ∧
      rangeBad stWalk (canonPa stWalk (atW l)) 8 = false ∧ leNat (readMem stWalk (canonPa stWalk (atW l)) 8) = pteW l ∧ pteW l % 2 = 1 ∧
      pteW l / 2 ^ 52 % 16 = 0 ∧ pteW l / 2 ^ 10 % 16 = 0 ∧ pteW l / 2 ^ 5 % 4 = 0) ∧
    (∀ l, l < 3 → pteW (l + 1) / 2 % 2 = 0 ∧ tblW l = pteW (l + 1) / 2 ^ 14 % 2 ^ 38 * 2 ^ 14) ∧ pteW 0 / 2 % 2 = 1 ∧
    pteW 0 / 2 ^ 14 % 4 = 0 ∧ pteW 0 / 2 ^ 8 % 4 ≠ 3 ∧ (pteW 0 / 2 ^ 50 % 4 = 1 → pteW 0 / 2 ^ 8 % 4 = 2) ∧ allowed (pteW 0) .fetch = true ∧
    reservedPa (pteW 0 / 2 ^ 16 % 2 ^ 36 * 2 ^ 16) = false ∧
    windowCover (stWalk.tenant 0) (pteW 0 / 2 ^ 16 % 2 ^ 36 * 2 ^ 16) 65536 = some true ∧
    (∀ x ∈ (stWalk.core 0).tlb, x.hits 0 (BitVec.ofNat 64 vaW).toNat = false) ∧
    (stWalk.die 0).leaf.find? (fun x => x.hits 0 vaW) = none ∧ (∃ ts, walk stWalk 0 0 vaW .read = .ok (leafW, ts)) ∧
    ({ leaf := [leafW] } : Die).leaf.find? (fun x => x.hits 0 vaW) = some leafW ∧ (stWalk.core 0).tlb.length < Config.tlbEntries := by
  and_intros
  all_goals first
    | decide +kernel
    | exact below_of (by decide +kernel)
    | exact ⟨((walk stWalk 0 0 vaW .read).toOption.getD (leafW, [])).2, ok_of (by decide +kernel)⟩

/-- A tenant with a fault ring of 16 entries at its end, an entry to post and one that a cohort waits on. -/
def entF (id : Nat) (seq : Option Word) : FaultEntry := { id := id, va := 0x12345, seq := seq, kind := 2, agent := 1, core := 511, lvl := 3, reason := 1 }
def tenantF : Tenant :=
  { tenantW with txctl := 0x0000FF01, txfrb := 0xF0000, txfrh := 15, txfrt := 1, fseq := 9, faults := [entF 7 (some 8), entF 8 none],
                 thbase := 0x0000030000002001, thctl := 0x10020 }
def coPage : Cohort := { co0 [(48, 3)] with park := some (.page [7]), fault := some ⟨6, 0, 0x80, 2, 7, 8⟩ }
def stFault : State := { mk coPage with tenants := [(0, tenantF)], msix := [(255, { ctl := 0 })] }

theorem test_wit_TranslationEventsTakeEffect_faults :
    ((stFault.tenant 0).faults.filter (fun e => e.seq.isNone))[0]? = some (entF 8 none) ∧
    16 = 2 ^ ((stFault.tenant 0).txctl.toNat / 2 ^ 20 % 16 + 4) ∧
    0xF01E0 = canonPa stFault (frBase (stFault.tenant 0)) + 32 * ((stFault.tenant 0).txfrh % 16) ∧
    inWritableWindow (stFault.tenant 0) (frBase (stFault.tenant 0)) (32 * 16) = true ∧
    ((stFault.tenant 0).txfrh + 1) % 16 ≠ (stFault.tenant 0).txfrt % 16 ∧ cutOff stFault (frBase (stFault.tenant 0)) = false ∧
    plainTarget stFault (span 0xF01E0 32) ∧ 255 = (stFault.tenant 0).txctl.toNat / 2 ^ 8 % 2 ^ 12 ∧
    255 < (if (stFault.tenant 0).vf = 0 then 2048 else 256) ∧ vecMasked stFault (stFault.tenant 0).vf 255 = false ∧
    ((stWalk.tenant 0).txctl.getLsbD 0 = false ∧ (0x0000FF01 : Dword).getLsbD 0 = true) ∧
    (stFault.tenant 0).txctl.getLsbD 0 = (0x00F00001 : Dword).getLsbD 0 ∧
    16 = frSize (stFault.tenant 0) ∧ 15 = (0x8000F : Dword).toNat % 2 ^ 19 ∧ (stFault.tenant 0).txfrt ≤ 15 ∧ 15 ≤ (stFault.tenant 0).txfrh ∧
    (stFault.tenant 0).txfrh < 16 ∧ (stFault.tenant 0).faults.find? (fun e => e.seq == some 8) = some (entF 7 (some 8)) ∧
    ctxOf stFault 0 = some (cx coPage) ∧ waitingCohorts stFault 7 = [0] ∧ coPage.fault = some ⟨6, 0, 0x80, 2, 7, 8⟩ ∧ coPage.exports = [] ∧
    nothingSent stFault (cx coPage) ∧ (∀ g ∈ stFault.groups, ∀ c ∈ g.2.loader.slots ++ g.2.storer.slots, ∀ w ∈ c.2.waits, w.id ≠ 7) ∧
    (stFault.tenant 0).thctl.getLsbD 16 = true ∧ (stFault.tenant 0).thctl.toNat % 65536 ≠ 0 := by
  and_intros
  all_goals first
    | decide +kernel
    | exact rfl

/-- A tenant with an invalidation in progress. -/
def stInv : State := { mk (co0 []) with tenants := [(0, { tenantW with inv := some 0 })] }

theorem test_wit_TranslationEventsTakeEffect_invalidation :
    (stWalk.tenant 0).inv = none ∧ 2 ≤ (3 : BitVec 2).toNat ∧ (stInv.tenant 0).inv ≠ none ∧ (stInv.tenant 0).inv = some 0 ∧
    stillOut (((stInv.launches.filter (fun l => l.2.t == 0)).map (·.1)).foldl (fun s k => drainTenant s 0 k) stInv) 0 (invCovers 0 (stInv.tenant 0).invn) = false := by
  decide +kernel

/-- A package whose inbound window admits what has the key 7 to the first page, and whose aperture shows the second 64 GiB. -/
def stLink : State :=
  { State.reset with
      link := { len := true, hbap := 1, pkgid := 4, portup := 2 ^ 35 + 1, retrain := [(3, 0)], dwb := [(0, 0x0007000000000003)],
                dwl := [(0, 0)] },
      tenants := [(5, { vf := 32 })] }
def access (key : BitVec 16) (off : BitVec 40) (k : RemoteKind) : RemoteAccess := ⟨5, key, off, k⟩

theorem test_wit_LinkAndHostAccessesTakeEffect :
    (0x20 : Dword).toNat % 64 ≤ 32 ∧ (∀ p ∈ stLink.tenants, p.1 ≠ 5 → p.2.vf ≠ 32) ∧
    0x1000000000 = stLink.link.hbap * 2 ^ 36 ∧ 0xFFFFFFFFE + [(1 : Byte), 2].length ≤ 2 ^ 36 ∧
    homeReady stLink (0x1000000000 + 0xFFFFFFFFE) = true ∧ plainTarget stLink (span (0x1000000000 + 0xFFFFFFFFE) 2) ∧
    Admitted stLink (access 7 0xFFF8 (.load 8)) 8 false ∧ rangeBad stLink 0xFFF8 8 = false ∧
    Admitted stLink (access 7 0xFFF8 (.store (leBytes 8 5))) 8 true ∧ plainTarget stLink (span 0xFFF8 8) ∧
    (∀ p ∈ atomForms, (BitVec.ofNat 4 p.1).toNat = p.1) ∧ Admitted stLink (access 7 0xFFF8 (.atomic 14 true 1 2)) 8 true ∧
    Admitted stLink (access 7 0xFFFC (.atomic 14 false 1 2)) 4 true ∧
    stLink.link.len = true ∧ stLink.link.pkgid ≠ 1023 ∧ admitted stLink.link 8 0xFFF8 8 true = false ∧
    admitted stLink.link 7 0xFFF9 8 true = false ∧ homeReady stLink 0xFFF8 = true ∧
    35 < 36 ∧ stLink.link.portup.getLsbD 35 = true ∧ (∀ p ∈ stLink.link.retrain, p.1 ≠ 35) ∧ ∃ p ∈ stLink.link.retrain, p.1 = 3 := by
  refine ⟨?_, ?_, ?_, ?_, ?_, ?_, ?_, ?_, ?_, ?_, ?_, ?_, ?_, ?_⟩ <;> try simp only [plainTarget, Admitted, span]
  all_goals decide +kernel

/-- A module with errors to report, a silent front end, a core with 16 errors, and an error ring of 64 records whose head wraps. -/
def errE : ErrorRec := ⟨2, true, 3, 7, 0x81, 0x3FFFC0⟩
def anvilE (ctl : Dword) : Anvil :=
  { errs := [errE, errE], errctl := ctl, errbase := 0x4000000000000040, errh := 0xFFFFFFFF, errt := 5, errseq := 9, heard := [(0, 1), (4, 3)] }
def stErr (ctl : Dword := 1) : State :=
  { mk (co0 []) group0 { core0 with errs := 16 } with
      clk := 6000003, badLines := [5, 9], slices := [(homeSlice 576, { bad := [9] })], anvil := anvilE ctl }
def site (place part owner addr bits : Nat) : ErrorSite := ⟨place, bits, 1, 0x85, some 2, addr, owner, part⟩

theorem test_wit_ErrorsAreRecordedAndRecovered :
    lookup stErr.anvil.heard 0 = some 1 ∧ lookup stErr.anvil.heard 4 = some 3 ∧ 1 + 4 * 1500000 ≤ stErr.clk ∧ 3 + 4 * 1500000 ≤ stErr.clk ∧
    (stErr.die 0).inReset = false ∧ 16 ≤ (stErr.core 0).errs ∧ 0 ∉ stErr.anvil.quar ∧
    detected (site 5 0 0 3 2) = false ∧ detected (site 2 0 0 3 1) = true ∧ uncorrectable (site 2 0 0 3 1) = false ∧ (site 2 0 0 3 1).place ≠ 6 ∧
    (∀ p ∈ [(1, 2), (2, 3), (5, 1), (7, 2)], detected (site p.1 1 0 3 p.2) = true ∧ uncorrectable (site p.1 1 0 3 p.2) = true) ∧
    lookup stErr.cohorts (site 5 1 0 3 1).owner = some (co0 []) ∧ lookup stErr.groups (site 7 1 0 3 2).owner = some group0 ∧
    [5] = stErr.badLines.filter (fun l => decide (64 * l < 2 ^ 40) && !(stErr.slice (homeSlice (64 * l))).bad.contains l) ∧
    [9] = stErr.badLines.filter (fun l => (stErr.slice (homeSlice (64 * l))).bad.contains l) ∧
    stErr.anvil.errs = errE :: [errE] ∧ stErr.anvil.errctl.getLsbD 0 = true ∧
    (stErr.anvil.errh + 1).toNat % errSize stErr.anvil ≠ stErr.anvil.errt.toNat % errSize stErr.anvil ∧
    2 ^ 50 + 0x820 = busPa ((0x4000000000000040 : Dword).toNat / 32 % 2 ^ 47 * 32 + 32 * ((0xFFFFFFFF : Word).toNat % 64)) ∧
    errSize stErr.anvil = 64 ∧ (∀ a ∈ span (2 ^ 50 + 0x820) 32, stErr.badLines.contains (a / 64) = false) ∧
    (stErr 0).anvil.errctl.getLsbD 0 = false ∧ (0x1F : Dword).getLsbD 0 = true := by
  simp only [span]; decide +kernel

/-- A module at each of its bring-up steps, with an image that is too short and a report asked for. -/
def stUp (step : Nat) (ready : Bool) (st : Nat) : State :=
  { State.reset with
      clk := 3000000, anvil := { step := step, ready := ready, st := st, dst := 0x3FFFFFFFFE000, asked := [1, 2, 3, 4], mhzDrop := 7,
                                 flash := [(1, [1, 0])] } }

theorem test_wit_AnvilBringsUpAndReports :
    (stUp 0 false 0).powered = true ∧ (stUp 0 false 0).anvil.fail = 0 ∧ (stUp 0 false 0).anvil.ready = false ∧
    (stUp 0 false 0).anvil.step + 1 ∉ [2, 3, 4, 5] ∧ (stUp 4 false 0).anvil.step = 4 ∧
    (∀ kind ∈ [1, 2, 3], (stUp kind false 0).anvil.step = kind ∧
      imageFail (stUp kind false 0).anvil ((lookup (stUp kind false 0).anvil.flash kind).getD []) kind = 4) ∧
    (0x0103FFFFFFFFE040 : Dword).toNat / 2 ^ 56 = 1 ∧ (stUp 5 true 0).anvil.st ≠ 1 ∧ (stUp 5 true 0).anvil.ready = true ∧
    (stUp 3 false 0).anvil.ready = false ∧ (stUp 5 true 1).anvil.st = 1 ∧ (stUp 5 true 1).anvil.asked.length = 4 ∧
    (∀ d ∈ (stUp 5 true 1).dies, d.2.inReset = false) ∧ (stUp 5 true 1).badLines = [] ∧
    (stUp 5 true 0).anvil.mhzDrop < 8 ∧ (stUp 5 true 0).clk ≠ 0 ∧ (stUp 5 true 0).clk % 1500000 = 0 := by
  decide +kernel

/-- A tenant whose group is halted in slot 7, with a trace ring of 256 records whose head wraps and a sample in each 64th clk. -/
def haltD : HaltSlot := ⟨0, 0, 1, 0⟩
def tenantD : Tenant :=
  { tenantW with right := true, halts := [(7, haltD)], trctl := 0x00010001, trbase := 0xE0000, trh := 0xFFFFFFFF, trt := 5, dbgdata := 0x0102030405060708 }
def coD : Cohort := { co0 [] with halted := true, cslot := 31 }
/-- The front end's cache with a page for a tenant. -/
def dieLeaf (va pa : Nat) : Die := { leaf := [⟨0, va, 16, pa, 0x1F, true⟩] }
def stDbg : State :=
  { mk coD { group0 with halt := some 7 } with tenants := [(0, tenantD)], clk := 128, dies := [(0, dieLeaf 0xE0000 0xD0000)] }
/-- A command on slot 7: OP, SPACE and INDEX, cohort 0, lane 31. -/
def cmdD (op space index : Nat) : Dword := BitVec.ofNat 64 (op * 2 ^ 60 + 7 * 2 ^ 57 + space * 2 ^ 54 + 31 * 2 ^ 44 + index)

theorem test_wit_TraceAndDebugCommandsTakeEffect :
    (stErr.tenant 0).trctl.getLsbD 0 = false ∧ (0x00F10001 : Dword).getLsbD 0 = true ∧
    stDbg.tenants = [(0, tenantD)] ∧ tenantD.trctl.getLsbD 0 = true ∧ 64 = tenantD.trctl.toNat / 2 ^ 16 % 2 ^ 16 * 64 ∧ stDbg.clk % 64 = 0 ∧
    sampledNow stDbg 0 0 = false ∧ nextSample stDbg 0 0 = some (0, coD) ∧ launchOf stDbg coD = some ({ group0 with halt := some 7 }, launch0) ∧
    256 = 2 ^ (tenantD.trctl.toNat / 16 % 16 + 8) ∧ 0xE0000 = tenantD.trbase.toNat / 64 % 2 ^ 54 * 64 ∧
    (tenantD.trh + 1).toNat % 256 ≠ tenantD.trt.toNat % 256 ∧ ringInWindow stDbg 0 0xE0000 (48 * 256) = true ∧
    (∃ ps, xlatRange stDbg 0 (0xE0000 + 48 * (tenantD.trh.toNat % 256)) 48 .write = .ok ps ∧ ps = [(0xD2FD0, 48)]) ∧
    plainTarget stDbg (span 0xD2FD0 48) ∧
    (∀ p ∈ [(1, 0, 63), (1, 1, 255), (1, 3, 0), (2, 0, 63), (2, 3, 0), (3, 0, 0)],
      (dbgCmdOf (cmdD p.1 p.2.1 p.2.2)).op = p.1 ∧ (dbgCmdOf (cmdD p.1 p.2.1 p.2.2)).space = p.2.1 ∧
      (dbgCmdOf (cmdD p.1 p.2.1 p.2.2)).index = p.2.2 ∧ (dbgCmdOf (cmdD p.1 p.2.1 p.2.2)).cohix = 0 ∧
      (dbgCmdOf (cmdD p.1 p.2.1 p.2.2)).hslot = 7 ∧ (dbgCmdOf (cmdD p.1 p.2.1 p.2.2)).bad = false) ∧
    (dbgCmdOf (cmdD 4 0 0)).op = 4 ∧ (dbgCmdOf (cmdD 4 0 0)).bad = false ∧ (dbgCmdOf (cmdD 5 0 0)).bad = true ∧
    (stDbg.tenant 0).right = true ∧ (stDbg.tenant 0).dbgst ≠ 1 ∧ (∀ g ∈ stDbg.groups, g.2.save = false) ∧ lookup (stDbg.tenant 0).halts 7 = some haltD ∧
    rising stDbg.cohorts = true ∧
    (∀ p ∈ stDbg.cohorts, p.2.grp = 0 → p.2.ix = 0 → p.2.ended = false → p = (0, coD)) ∧
    255 < coD.nv ∧ 8 ≤ (launch0.node 0).alloc 0 ∧ 8 ≤ (launch0.node 0).spsz := by
  refine ⟨?_, ?_, ?_, ?_, ?_, ?_, ?_, ?_, ?_, ?_, ?_, ?_, ?_, ⟨_, ok_get [] (by decide +kernel), ?_⟩, ?_⟩ <;>
    try simp only [plainTarget, span]
  all_goals decide +kernel

/-- The bytes of a packet: TYPE and number, what its header holds from bit 40 to 47, tag, wait mask, set mask, body and CHK. -/
def rawB (type num bits tag wm sm body chk : Nat) : List Byte :=
  leBytes 8 (type + bits * 2 ^ 40 + num % 2 ^ 16 * 2 ^ 48) ++ leBytes 4 chk ++ leBytes 4 tag ++ leBytes 8 wm ++ leBytes 8 sm ++ leBytes 96 body
def pktW (id type num : Nat) (bits tag wm sm body : Nat := 0) (state : PktState := .waiting) : WinPkt :=
  { id := id, num := num, bytes := rawB type num bits tag wm sm body 0, state := state }
/-- A queue of 16 packets of tenant 0 whose head has wrapped, and its state, with the front end's page for its ring and its data. -/
def queueW (w : List WinPkt) : Queue :=
  { en := true, run := true, head := 0xFFFFFFFF, tail := 14, qbase := 0xE0080, tl := 5, irqt := 0x8000000000000005, window := w, tok := 0x101 }
def stQ (w : List WinPkt) (m : List Host.Cell := []) (Q : List WinPkt → Queue := queueW) : State :=
  { mk (co0 []) group0 with
      tenants := [(0, tenantW)], dies := [(0, dieLeaf 0xE0000 0xD0000)], queues := [(127, Q w), (3, Q w)], clk := 1000, mem := writeCells [] m }

/-- A NOP packet whose CHK is right, in four parts. -/
def nopB : List Byte := rawB 0 0xFFFFFFFF 0 7 1 2 0 0x4A95B2A3
def partB (i : Nat) : List Byte := ((nopB.take 8 ++ List.replicate 4 0 ++ nopB.drop 12).drop (32 * i)).take 32

theorem test_check_of_a_packet : copyGood nopB 0xFFFFFFFF = true := by
  have h : nopB.take 8 ++ List.replicate 4 0 ++ nopB.drop 12 = partB 0 ++ (partB 1 ++ (partB 2 ++ partB 3)) := by decide +kernel
  have h0 : (partB 0).foldl crcByte 0xFFFFFFFF = 0xE3713AA9 := by decide +kernel
  have h1 : (partB 1).foldl crcByte 0xE3713AA9 = 0x345B007A := by decide +kernel
  have h2 : (partB 2).foldl crcByte 0x345B007A = 0x08B46065 := by decide +kernel
  have h3 : (partB 3).foldl crcByte 0x08B46065 = 0xB56A4D5C := by decide +kernel
  have hw : wordAt nopB 8 = 0x4A95B2A3 ∧ leNat ((nopB.drop 6).take 2) = 0xFFFF := by decide +kernel
  simp only [copyGood, crc32c, h, List.foldl_append, h0, h1, h2, h3, hw]
  decide

/-- No interrupt is armed and no WAIT runs. -/
def calm (s : State) (q : Nat) : Bool :=
  !(s.queue q).arm && s.queues.all (fun p => p.2.window.all (fun w => match w.state with | .waits _ => false | _ => true))
theorem quiet_of {s : State} {q : Nat} (h : calm s q = true) : quiet s q := by
  simp only [calm, Bool.and_eq_true, Bool.not_eq_true', List.all_eq_true] at h
  refine ⟨h.1, fun p hp w hw a e => ?_⟩
  have := h.2 p hp w hw
  rw [e] at this
  exact nomatch this

theorem test_wit_QueueRegistersAndFetchTakeEffect :
    let s := { stQ [pktW 1 3 5, pktW 2 0 6] with msix := [(2303, { ctl := 0 })], tenants := [(0, { tenantW with vf := 1 })] }
    let f := stQ [] (cellsOf 0xD0800 nopB)
    let b := stQ [] (cellsOf 0xD0800 (rawB 0 0xFFFFFFFE 0 7 1 2 0 0x4A95B2A3))
    (s.queue 127).en = true ∧ (BitVec.ofNat 32 (0xABCD0000000F : Dword).toNat - (s.queue 127).head).toNat ≤ 2 ^ ((s.queue 127).sz + 4) ∧
    2 ^ ((s.queue 127).sz + 4) < (BitVec.ofNat 32 (0x10 : Dword).toNat - (s.queue 127).head).toNat ∧ (∀ p ∈ (s.queue 127).window, p.id ≠ 0) ∧
    (s.queue 64).en = false ∧ (0x00050C01 : Dword).getLsbD 0 = true ∧ (0x00050C01 : Dword).toNat / 2 ^ 8 % 16 ≤ 12 ∧
    (s.queues.filter (fun p => p.2.en)).length < 1024 ∧ quiet s 64 ∧ 12 < (0x00050D01 : Dword).toNat / 2 ^ 8 % 16 ∧ quiet s 127 ∧
    (0x00050C02 : Dword).getLsbD 0 = false ∧ (0x3 : Dword).getLsbD 0 = true ∧ (0x3 : Dword).getLsbD 1 = true ∧
    (({ queueW [] with run := false }).en = true ∧ ({ queueW [] with run := false }).run = false) ∧
    0 ≤ ((if (s.queue 127).en then (s.queue 127).tl else 0) - 5).toInt ∧
    ((if (s.queue 127).en then (s.queue 127).tl else 0) - (s.queue 127).irqt).toInt < 0 ∧
    255 = (0x0FF0001 : Dword).toNat / 2 ^ 16 % 2 ^ 12 ∧ 255 < (if queueFn s 127 = 0 then 2048 else 256) ∧ vecMasked s (queueFn s 127) 255 = false ∧
    frontHeld f 127 = false ∧ (f.queue 127).next? = some 0xFFFFFFFF ∧
    frontRead f 0 ((f.queue 127).qbase.toNat + 128 * (0xFFFFFFFF % 2 ^ 4)) 128 = .ok nopB ∧ copyGood nopB 0xFFFFFFFF = true ∧
    packetBad { id := f.fresh, num := 0xFFFFFFFF, bytes := nopB } = false ∧
    (∃ d, frontRead b 0 ((b.queue 127).qbase.toNat + 128 * (0xFFFFFFFF % 2 ^ 4)) 128 = .ok d ∧ copyGood d 0xFFFFFFFF = false) ∧
    (f.queue 127).tries = 0 ∧ (f.queue 127).triedAt + 64 ≤ f.clk := by
  have hs : leNat (((rawB 0 0xFFFFFFFE 0 7 1 2 0 0x4A95B2A3).drop 6).take 2) = 0xFFFE := by decide +kernel
  have hb : copyGood (rawB 0 0xFFFFFFFE 0 7 1 2 0 0x4A95B2A3) 0xFFFFFFFF = false := by
    simp only [copyGood, hs, show (65534 == 4294967295 % 2 ^ 16) = false by decide, Bool.and_false]
  intro s f b
  refine ⟨?_, ?_, ?_, ?_, ?_, ?_, ?_, ?_, quiet_of ?_, ?_, quiet_of ?_, ?_, ?_, ?_, ?_, ?_, ?_, ?_, ?_, ?_, ?_, ?_, ok_of ?_,
    test_check_of_a_packet, ?_, ⟨rawB 0 0xFFFFFFFE 0 7 1 2 0 0x4A95B2A3, ok_of ?_, hb⟩, ?_⟩
  all_goals decide +kernel

/-- A packet of a type after one that is not ready; it consumes its tokens of the queue's own register. -/
def winP (q type body : Nat) : List WinPkt := [pktW 1 0 5 0 0 0x200, pktW 2 type 6 (2 + q % 64 * 4) 77 0x101 0x8000000000000000 body]
def recP : Rec := { id := 50, slot := 0, gen := 0, node := 0, tag := 9, payload := leBytes 8 3 }
/-- A graph of one lane node with an entry point, at 0xE1000; the entry for it at 0xE1200. -/
def nodeP : Nat := 31 * 2 ^ 671 + 8 * 2 ^ 640 + 100 * 2 ^ 544 + 99 * 2 ^ 612 + 99 * 2 ^ 592 + 2 ^ 695 + 0x100
def graphP (e : Nat) : List Host.Cell :=
  cellsOf 0xD1000 (leBytes 64 (0xE1080 + 0x10000 * 2 ^ 64)) ++ cellsOf 0xD1080 (leBytes 128 nodeP) ++ cellsOf 0xD1200 (leBytes 16 (e + 8 * 2 ^ 16 + 5 * 2 ^ 64))
def stP (q type body : Nat) (e : Nat := 0) : State :=
  let s := stQ [] (graphP e) (fun _ => queueW (winP q type body))
  { s with tenants := [(0, { tenantW with txctl := 1, caps := [⟨4, [1, 2, 3, 4, 5, 6, 7, 8], 0xE3FF0, 600, true, [9, 8, 7, 6, 5, 4, 3, 2]⟩] })],
           dies := [(0, { dieLeaf 0xE0000 0xD0000 with pages := [⟨60, 0, 0, 1, [(0, recP)], none⟩] })], slices := [(300, { redo := [redoQ 0] })] }
def begun (s : State) (q n type : Nat) : State × WinPkt := (starting s q n type).getD (s, pktW 0 0 0)
/-- The bodies: of a GRAPH, COPY, SIGNAL, WAIT, WITHDRAW, VACATE, CAPSTART, CAPSTOP and REDFLUSH. -/
def bodyP (k : Nat) : Nat :=
  [0, 0xE1000 + 0xE1200 * 2 ^ 64 + 2 ^ 128 + 16 * 2 ^ 144 + 0xE2000 * 2 ^ 192, 0xE1000 + 0xE2FC0 * 2 ^ 64 + 199 * 2 ^ 128, 6, 6 + 63 * 2 ^ 64, 77,
   1 + 2 * 2 ^ 16 + 31 * 2 ^ 32, 5 + 0xE4000 * 2 ^ 64 + 0xE2000 * 2 ^ 128, 4, 0].getD k 0
theorem some_get {α : Type} {o : Option α} (d : α) (h : o.isSome = true) : o = some (o.getD d) := by
  cases o with
  | some a => rfl
  | none => exact nomatch h

theorem begun_of {s : State} {q n k : Nat} (h : (starting s q n k).isSome = true) :
    starting s q n k = some ((begun s q n k).1, (begun s q n k).2) := some_get (s, pktW 0 0 0) h

theorem test_wit_PacketsTakeEffect_starts (k : Nat) (hk : k < 10) :
    let s := stP 127 k (bodyP k)
    startTurn s 127 = true ∧
    (s.queue 127).window = [pktW 1 0 5 0 0 0x200] ++ pktW 2 k 6 254 77 0x101 0x8000000000000000 (bodyP k) :: [] ∧
    (∀ r ∈ [pktW 1 0 5 0 0 0x200], packetReady s 127 r = false) ∧
    packetReady s 127 (pktW 2 k 6 254 77 0x101 0x8000000000000000 (bodyP k)) = true ∧
    (pktW 2 k 6 254 77 0x101 0x8000000000000000 (bodyP k)).type = k ∧
    starting s 127 6 k = some ((begun s 127 6 k).1, (begun s 127 6 k).2) := by
  rcases k with _ | _ | _ | _ | _ | _ | _ | _ | _ | _ | k
  case succ.succ.succ.succ.succ.succ.succ.succ.succ.succ => exact absurd hk (by omega)
  all_goals exact ⟨by decide +kernel, by decide +kernel, by decide +kernel, by decide +kernel,
    by decide +kernel, begun_of (by decide +kernel)⟩

def startedS (k : Nat) : State := (begun (stP 127 k (bodyP k)) 127 6 k).1
def startedP (k : Nat) : WinPkt := (begun (stP 127 k (bodyP k)) 127 6 k).2
def vac (mode : Nat) : State × WinPkt := begun (stP 3 6 (1 + mode * 2 ^ 8 + 2 * 2 ^ 16 + 31 * 2 ^ 32)) 3 6 6
def capP : Capture := ⟨4, [1, 2, 3, 4, 5, 6, 7, 8], 0xE3FF0, 600, true, [9, 8, 7, 6, 5, 4, 3, 2]⟩
def badGraph : State := (begun (stP 127 1 (bodyP 1) 1) 127 6 1).1
def doneQ : State := stQ [pktW 1 0 5, pktW 2 2 6 0 0 0 9 0 .done]

theorem test_wit_PacketsTakeEffect_words :
    (starting (stP 127 3 5) 127 6 3).isSome = true ∧ (BitVec.ofNat 64 ((begun (stP 127 3 5) 127 6 3).2.num' 32 8) - ((stP 127 3 5).queue 127).tl).toInt ≤ 0 ∧
    0 < (BitVec.ofNat 64 ((startedP 3).num' 32 8) - ((startedS 3).queue 127).tl).toInt ∧ quiet (startedS 3) 127 ∧
    waitMet (startedS 4) 127 (startedP 4) = false ∧ (starting (stP 127 4 (5 + 63 * 2 ^ 64)) 127 6 4).isSome = true ∧
    waitMet (stP 127 4 (5 + 63 * 2 ^ 64)) 127 (begun (stP 127 4 (5 + 63 * 2 ^ 64)) 127 6 4).2 = true ∧
    ((startedS 4).tenant 0).trctl.getLsbD 0 = false ∧
    (∃ b, frontRead (startedS 2) 0 ((startedP 2).num' 32 8) ((startedP 2).num' 48 4 + 1) = .ok b ∧ b.length = 200) ∧
    plainAt (startedS 2) 0 ((startedP 2).num' 40 8) 200 0xD2FC0 ∧
    (startedP 5).num' 40 8 = 0 ∧ (∀ x ∈ ((startedS 5).queue 127).window, x.id = (startedP 5).id → x.state = .started) ∧
    startedP 5 ∈ ((startedS 5).queue 127).window ∧ rising (startedS 5).queues = true ∧
    (starting (stP 3 6 (1 + 2 * 2 ^ 16 + 31 * 2 ^ 32)) 3 6 6).isSome = true ∧ (vac 0).2.num' 33 1 = 0 ∧
    (starting (stP 3 6 (1 + 2 ^ 8 + 2 * 2 ^ 16 + 31 * 2 ^ 32)) 3 6 6).isSome = true ∧ (vac 1).2.num' 33 1 = 1 ∧
    lookup (vac 0).1.groups 0 = some group0 ∧ (∀ l, lookup (vac 0).1.launches group0.slot = some l → l.t ≠ (vac 0).2.num' 36 1) := by
  have hv : ∀ l, lookup (vac 0).1.launches group0.slot = some l → l.t ≠ (vac 0).2.num' 36 1 := by
    intro l h
    rw [show lookup (vac 0).1.launches group0.slot = some launch0 by decide +kernel] at h
    cases h
    decide +kernel
  refine ⟨?_, ?_, ?_, quiet_of ?_, ?_, ?_, ?_, ?_, ⟨_, ok_get [] (by decide +kernel), ?_⟩, ⟨ok_of ?_, ?_⟩, ?_, ?_, ?_, ?_, ?_, ?_, ?_, ?_, ?_, hv⟩
  all_goals first | decide +kernel | (simp only [plainTarget, span]; decide +kernel)

theorem test_wit_PacketsTakeEffect_graphs :
    (∃ b, frontRead (startedS 7) 0 ((startedP 7).num' 40 8) 16 = .ok b ∧ ∀ i < 8, leNat ((b.drop (2 * i)).take 2) < 16) ∧
    ((startedS 7).tenant 0).caps.length < 4 ∧ (∀ c ∈ ((startedS 7).tenant 0).caps, c.cid ≠ (startedP 7).num' 32 2) ∧
    ((startedS 8).tenant 0).caps.find? (fun d => d.cid == (startedP 8).num' 32 2) = some capP ∧
    plainAt (startedS 8) 0 capP.out.toNat 80 0xD3FF0 ∧
    launchAt (startedS 9) ((startedP 9).num' 32 1) (BitVec.ofNat 16 ((startedP 9).num' 34 2)) = some launch0 ∧ launch0.t = queueTenant 127 ∧
    launch0.ending = none ∧ launchAt (startedS 9) 5 0 = none ∧ ((startedS 9).tenant launch0.t).area = none ∧
    (∃ ps, xlatRange (startedS 1) 0 ((startedP 1).num' 56 8) 32 .write = .ok ps ∧ ps = [(0xD2000, 32)]) ∧
    startedP 1 ∈ ((startedS 1).queue 127).window ∧ (startedP 1).num = 6 ∧ (startedP 1).type = 1 ∧ (startedP 1).state = .started ∧
    (∀ x ∈ ((startedS 1).queue 127).window, x.num = 6 ∨ x.id = (startedP 1).id → x = startedP 1) ∧ lookup (startedS 1).launches 1 = none ∧
    lookup (startedS 1).launches 0 ≠ none ∧ ((startedS 1).tenant 0).txctl.getLsbD 0 = true ∧ frontHeld (startedS 1) 127 = false ∧
    plainAt (startedS 1) 0 ((startedP 1).num' 56 8) 32 0xD2000 ∧
    (∃ p, checkGraph (startedS 1) 0 (startedP 1) = .ok p ∧ p.2 = [(0, leBytes 8 5)]) ∧
    (match checkGraph badGraph 0 (startedP 1) with | .error f => f.code == 7 && f.read.isNone | .ok _ => false) = true ∧
    startedNow doneQ = [] ∧ pktW 2 2 6 0 0 0 9 0 .done ∈ (doneQ.queue 127).window ∧ (∀ x ∈ (doneQ.queue 127).window, x.num = 6 → x = pktW 2 2 6 0 0 0 9 0 .done) := by
  refine ⟨⟨_, ok_get [] (by decide +kernel), ?_⟩, ?_, ?_, ?_, ⟨ok_of ?_, ?_⟩, ?_, ?_, ?_, ?_, ?_, ⟨_, ok_get [] (by decide +kernel), ?_⟩, ?_, ?_, ?_, ?_,
    ?_, ?_, ?_, ?_, ?_, ⟨ok_of ?_, ?_⟩, ⟨_, ok_get (launch0, []) (by decide +kernel), ?_⟩, ?_, ?_, ?_, ?_⟩
  all_goals first | decide +kernel | (simp only [plainTarget, span]; decide +kernel)

/-- Nodes of the three kinds, records of 8 bytes: the timer and the gang's wait 64 clk, groups of at most 2 records, gangs of 2 to 3. -/
def nodeR (kind : Nat) : NodeCopy :=
  ⟨BitVec.ofNat 1024 (31 * 2 ^ 671 + 8 * 2 ^ 640 + 100 * 2 ^ 544 + 99 * 2 ^ 612 + 99 * 2 ^ 592 + kind * 2 ^ 637 + 64 * 2 ^ 560 +
    (if kind = 2 then 2 ^ 745 + 2 * 2 ^ 742 + 64 * 2 ^ 576 else 0) + (if kind = 1 then 2 ^ 704 + 64 * 2 ^ 714 + 3 * 2 ^ 681 else 0)), [], [], [], 0⟩
def launchR : Launch :=
  { t := 0, desc := BitVec.ofNat 512 (0x8000 * 2 ^ 64 + 2 * 2 ^ 288 + 7 * 2 ^ 315 + 1 * 2 ^ 256 + 0xC0 * 2 ^ 192), nodes := [nodeR 0, nodeR 1, nodeR 2] }
def recR (id node : Nat) (cand at_ : Nat := 0) : Rec :=
  { id := id, slot := 0, gen := 0, node := node, payload := leBytes 8 (id + 7 * 2 ^ 40), from_ := 9, cand := cand, at_ := at_ }
def pageR2 (id node : Nat) (rs : List Rec) (arena : Option Nat := none) (used : Nat := rs.length) : RecPage :=
  ⟨id, 0, node, used, (List.range rs.length).zip rs, arena⟩
def stR (D : Die) (clk : Nat := 100) : State :=
  { mk (co0 []) with anvil := { ready := true }, launches := [(0, launchR)], dies := [(0, D)], clk := clk, fresh := 200 }
def candR (node : Nat) : Cand := ⟨70, 0, node, none, 40⟩

theorem test_wit_RecordsReachTheirCores :
    let a := stR { transit := [recR 60 0] }
    (a.die 0).transit[0]? = some (recR 60 0) ∧ (a.die 0).inReset = false ∧ waitsBehind a ((a.die 0).transit.take 0) (recR 60 0) = false ∧
    (recR 60 0).own = true ∧ lookup a.launches 0 = some launchR ∧ launchR.ending = none ∧
    admits a 0 launchR (recR 60 0) = true ∧ pageGiven (a.onDie 0 (fun D => { D with transit := D.transit.eraseIdx 0 })) 0 0 0 = true ∧
    pagesApart a 0 ∧ (∀ p ∈ (a.die 0).pages, p.id ≠ a.fresh) ∧ (a.die 0).queue 0 0 = [] ∧ (∀ c ∈ (a.die 0).cands, c.at_ ≠ a.clk) ∧
    bufOf launchR (recR 60 0) = some (0, 0, none) ∧ (bufRecs a 0 (0, 0, none)).length + 1 < (launchR.node 0).packMax ∧
    (∀ kind < 2, let b := stR { pages := [pageR2 80 kind [recR 60 kind, recR 61 kind]] } 64
      (buffersOf b 0)[0]? = some (0, kind, none) ∧ bufRecs b 0 (0, kind, none) = recR 60 kind :: [recR 61 kind] ∧
      (launchR.node kind).kind = kind ∧ (recR 60 kind).at_ + (launchR.node kind).tmr ≤ b.clk) ∧
    (∀ kind < 2, let c := stR { pages := [pageR2 80 kind [recR 60 kind 70, recR 61 kind 70]], cands := [candR kind] }
      firstResume c 0 = none ∧ choices c 0 = [] ++ .formed (candR kind) :: [] ∧ placesOf c 0 (.formed (candR kind)) = some [1] ∧
      (launchR.node kind).kind ≤ 1 ∧ choiceRecs c 0 (.formed (candR kind)) = [recR 60 kind 70, recR 61 kind 70] ∧
      (launchR.node kind).pipe = false ∧ (∀ r ∈ [recR 60 kind 70, recR 61 kind 70], r.payload.length = (launchR.node kind).rsize)) := by
  refine ⟨?_, ?_, ?_, ?_, rfl, rfl, ?_, ?_, ?_, ?_, ?_, ?_, ?_, ?_, ?_, ?_⟩ <;> try simp only [pagesApart]
  all_goals decide +kernel

/-- A cohort parked with a record; a die with a gang record; one with 3,584 resume pages and a full page of records; and a page in
the arena as it was spilled. -/
def recOut : Rec := { recR 60 0 with handle := 0xFFC0000000000000 }
def coOut : Cohort := { co0 [] with park := some .spawn, outbox := [recOut] }
def xOut : Ctx := ⟨0, coOut, group0, launchR⟩
def stOut : State := { stR { parked := [0] } with cohorts := [(0, coOut)] }
def stGang : State := stR { pages := [pageR2 80 2 [recR 60 2]] } 70000
def savedR : Saved := { grp := group0, cohorts := [], pages := [] }
def pageFull : RecPage := pageR2 80 0 [recR 60 0, recR 61 0] none 200
def dieSpill (n : Nat) : Die := { pages := [pageFull], resumes := [⟨0, 0, none, 0, List.replicate n savedR, recR 1 0, none⟩] }
def stSpill : State := stR (dieSpill 3584)
def pageAway : RecPage := pageR2 81 0 [recR 60 0, recR 61 0] (some 0)
def launchAway : Launch := { launchR with arenaUsed := [0] }
def stAway : State :=
  { stR { pages := [pageAway] } with
      launches := [(0, launchAway)],
      mem := writeCells [] (cellsOf (0xC0000 + 64) (padTo 32 (recHeader (recR 60 0) ++ (recR 60 0).payload) ++
        padTo 32 (recHeader (recR 61 0) ++ (recR 61 0).payload))) }
def stSent : State := { stR {} with link := { sent := [(3, recR 60 0), (4, recR 61 0), (3, recR 62 0)], credits := [(3, 2), (4, 1)] } }

theorem pages_of (n : Nat) : (dieSpill n).pagesUsed = 1 + n := by simp [Die.pagesUsed, dieSpill, pageFull, pageR2, savedR]
theorem plain_of {s : State} {pa n : Nat} (h : pa + n ≤ 2 ^ 40) (hb : s.badLines = []) (hs : s.slices = [])
    (hd : ∀ d, (s.die d).inReset = false) : plainTarget s (span pa n) := by
  have hp : ∀ a ∈ span pa n, placeOf s a = .hbm := by
    intro a ha
    simp only [span, List.mem_map, List.mem_range] at ha
    obtain ⟨i, hi, rfl⟩ := ha
    have h0 : (pa + i) / 2 ^ 50 = 0 := Nat.div_eq_of_lt (by omega)
    have h1 : bitsOf (pa + i) 49 40 = 0 := by
      simp only [bitsOf]
      rw [Nat.div_eq_of_lt (show pa + i < 2 ^ 40 by omega), Nat.zero_mod]
    simp only [placeOf, h0, h1]; rfl
  refine ⟨fun a ha => ⟨hp a ha, by rw [hb]; rfl, by rw [State.slice, hs]; rfl⟩, fun a ha => ?_⟩
  simp [homeReady, hp a ha, hd]

theorem dies_of (n d : Nat) : ((stR (dieSpill n)).die d).inReset = false := by
  by_cases e : 0 = d
  · subst e; rfl
  · simp [State.die, stR, Machine.get, lookup, e]

theorem test_wit_RecordsReachTheirCores_more :
    (stOut.die 0).parked[0]? = some xOut.c ∧ ctxOf stOut 0 = some xOut ∧ xOut.co.outbox = [recOut] ∧ destOf stOut recOut = .die (sliceDie (recSlice (launchR.node 0) recOut)) ∧
    xOut.l.ending = none ∧ roomFor stOut recOut (destOf stOut recOut) ((stOut.die 0).parked.take 0) = true ∧ xOut.co.pend = [] ∧
    (gangRecs stGang 0)[0]? = some (recR 60 2) ∧ lookup stGang.launches 0 = some launchR ∧
    (recR 60 2).at_ + (launchR.node 2).gwait + 65536 < stGang.clk ∧ (stGang.die 0).closures = [] ∧
    (stR {}).die 0 = {} ∧ 3584 < (stSpill.die 0).pagesUsed ∧ (∀ q ∈ (stSpill.die 0).pages, q.slot = 0 ∧ q.node = 0) ∧ pagesApart stSpill 0 ∧
    launchR.ending = none ∧ 0 < launchR.oapg ∧ (∀ a < launchR.oapg, a = 0) ∧ 0 ∉ launchR.arenaUsed ∧
    (fullPages stSpill 0 (0, 0)).head? = some pageFull ∧ arenaPa stSpill launchR 0 = 0xC0000 ∧
    plainTarget stSpill (span (arenaPa stSpill launchR 0) 4096) ∧
    readBackPage stAway 0 = some pageAway ∧ pageAway.arena = some 0 ∧ lookup stAway.launches 0 = some launchAway ∧
    (stAway.die 0).pagesUsed < 4096 ∧ rangeBad { stAway with badLines := [0x3000] } (arenaPa stAway launchAway 0) 4096 = true ∧
    rangeBad stAway (arenaPa stAway launchAway 0) 4096 = false ∧ asSpilled stAway launchAway 0 pageAway ∧
    (∀ x ∈ (stAway.die 0).pages, x.recs ≠ []) ∧
    ((stSent.link.sent.filter (fun p => p.1 == 3)).map (·.2))[1]? = some (recR 62 0) ∧ launchAt stSent 0 0 = some launchR := by
  have hp : (stSpill.die 0).pagesUsed = 1 + 3584 := pages_of 3584
  refine ⟨?_, rfl, ?_, ?_, ?_, ?_, ?_, ?_, ?_, ?_, ?_, ?_, by rw [hp]; decide, ?_, ?_, ?_, ?_, ?_, ?_, ?_, ?_,
    plain_of (by decide +kernel) rfl rfl (dies_of 3584), ?_, ?_, ?_, ?_, ?_, ?_, ?_, ?_, ?_, ?_⟩ <;> try simp only [pagesApart, asSpilled]
  all_goals decide +kernel

/-- A launch without a group, ending or not, whose GRAPH packet and completion record stand; and one whose only cohort has been
parked on a spawn since clk 1. -/
def launchE (e : Option (Nat × Nat)) : Launch := { launchR with packet := some (127, 2), crec := 0xE2000, ending := e }
def stEnd (e : Option (Nat × Nat)) (D : Die := {}) : State :=
  { stQ [pktW 2 1 6 0 0 0 0 0 (.launched 0)] with
      launches := [(0, launchE e)], groups := [], cohorts := [], cores := [], gens := [(0, 0xFFFF)], dies := [(0, { dieLeaf 0xE0000 0xD0000 with transit := D.transit })] }
def launchD : Launch := { launchR with deadSince := some 1, arenaUsed := [0] }
def stDead : State :=
  { stR { pages := [pageR2 80 0 ((List.range 100).map (fun i => recR (60 + i) 0 1))] } 65537 with
      launches := [(0, launchD)], cohorts := [(0, coOut)] }

theorem test_wit_LaunchesEnd :
    let s := stEnd none
    (0x003FFFC000000000 : Dword).toNat = 0 * 2 ^ 32 + (s.gen 0).toNat * 2 ^ 38 ∧ lookup s.launches 0 = some (launchE none) ∧
    (launchE none).ending = none ∧ (launchE none).pers = false ∧ outOfWork s 0 = true ∧
    (0x003FFF8000000000 : Dword).toNat / 2 ^ 32 % 64 = 0 ∧ (0x003FFF8000000000 : Dword).toNat / 2 ^ 38 % 2 ^ 16 ≠ (s.gen 0).toNat ∧
    lookup stDead.launches 0 = some launchD ∧ launchD.deadSince = some 1 ∧ isDead stDead 0 launchD = true ∧ 1 + 65536 ≤ stDead.clk ∧
    (∀ how < 3, lookup (stEnd (some (how, 7))).launches 0 = some (launchE (some (how, 7))) ∧
      remoteOutstanding (drainTenant (stEnd (some (how, 7))) 0 0) 0 = false ∧
      (stEnd (some (how, 7))).cores = [] ∧ (stEnd (some (how, 7))).slices = [] ∧ ((stEnd (some (how, 7))).tenant 0).area = none ∧
      (launchE (some (how, 7))).flushErr = 0 ∧ (launchE (some (how, 7))).crec ≠ 0 ∧
      plainAt (stEnd (some (how, 7))) 0 (launchE (some (how, 7))).crec.toNat 32 0xD2000) := by
  refine ⟨?_, ?_, ?_, ?_, ?_, ?_, ?_, ?_, ?_, ?_, ?_, fun how hh => ⟨rfl, rfl, rfl, rfl, rfl, rfl, fun h => absurd (show (0xE2000 : Dword) = 0 from h) (by decide), ok_of ?_, ?_⟩⟩
  case refine_13 => simp only [plainTarget, span]; revert how; decide +kernel
  all_goals first | decide +kernel | (revert how; decide +kernel)

/-- A group whose cohort is held for a save, whose launch has a free arena page or none; a die that resumes such a group; and a group
of 16 cohorts that have waited long on a barrier, on the one core that is not quarantined, while a formed cohort of its launch waits. -/
def coSave : Cohort := { co0 [(1, 7), (2, 8)] with park := some .saved, anchor := { spc := 0x200, mode := 3, entry := { slive := 4, vlive := 2 } }, v := [(33, 5), (65, 6)] }
def stSave (used : List Nat) : State :=
  { stR {} with launches := [(0, { launchR with arenaUsed := used })], groups := [(0, { group0 with save := true })], cohorts := [(0, coSave)] }
def savedOf (ix : Nat) : Saved := { grp := group0, cohorts := [{ coSave with park := none, anchor := { coSave.anchor with ix := ix } }], pages := [0] }
def resumeOf (ix : Nat) : Resume := ⟨0, 0, none, 5, [savedOf ix], recR 1 0, none⟩
def stResume (ix : Nat) : State := { stR { resumes := [resumeOf ix] } with launches := [(0, { launchR with arenaUsed := [0] })] }
def gLong : Group := { group0 with waits := (List.range 16).map (fun i => ⟨i, 0x40, 3, 10⟩) }
def stEvict : State :=
  { stR { pages := [pageR2 80 0 [recR 60 0 70]], cands := [candR 0], evictAt := some 65000 } 70000 with
      groups := [(0, gLong)], anvil := { ready := true, quar := (List.range 127).map (· + 1) },
      cohorts := (List.range 16).map (fun i => (i, { co0 [] with ix := i, sched := i % 2, cslot := i, park := some (.barrier 0x40 3) })) }

theorem dies_of_writes (f : State → Nat → State) (hf : ∀ s b, MemoryMoves s (f s b)) (l : List Nat) (s : State) : (l.foldl f s).dies = s.dies := by
  rw [memoryMoves_foldl f hf l s]

/-- A group with pages enough is saved. -/
theorem saved_of {s s1 : State} {gid n : Nat} {g g1 : Group} {l : Launch} {cos : List Cohort} (hg : lookup s.groups gid = some g)
    (hl : lookup s.launches g.slot = some l)
    (h1 : ((cohortsOf s gid).filter (fun p => !p.2.ended)).foldl (fun s p => settleCohort s g.core l.t p.1) s = s1)
    (h2 : (lookup s1.groups gid).getD g = g1)
    (h3 : sortBy (fun a b => decide (a.ix ≤ b.ix)) (((cohortsOf s1 gid).map (·.2)).filter (fun co => !co.ended)) = cos)
    (hn : ((saveArea s1 (l.node g.node) g1 cos).length + 4095) / 4096 = n)
    (hf : ((freeNumbers l.arenaUsed (min l.oapg (l.arenaUsed.length + n)) n).length != n || decide (992 < n)) = false)
    (hp : (s1.die (g1.core / 128)).pagesUsed < 4096) : (saveGroup s gid 0).isSome = true := by
  unfold saveGroup
  simp only [hg, hl, h1, h2, h3, hn, hf]
  simp only [Bool.false_eq_true, if_false]
  rw [if_neg, Option.isSome_some]
  intro h
  simp only [Bool.and_eq_true, Bool.not_eq_true', decide_eq_false_iff_not] at h
  refine h.1 ?_
  simp only [State.die, State.onLaunch]
  rw [dies_of_writes _ (fun s i => memoryMoves_writeArena s _ _ _ _)]
  exact hp

theorem test_wit_GroupsAreSavedAndResumed :
    (∀ u ∈ [[], [0]], lookup (stSave u).groups 0 = some { group0 with save := true } ∧
      lookup (stSave u).launches 0 = some { launchR with arenaUsed := u } ∧ launchR.ending = none ∧ group0.gang = 0 ∧ saveReady (stSave u) 0 = true) ∧
    (saveGroup (stSave []) 0 0).isSome = true ∧ saveGroup (stSave [0]) 0 0 = none ∧
    (∀ ix ∈ [1023, 2], firstResume (stResume ix) 0 = some 0 ∧ ((stResume ix).die 0).inReset = false ∧
      ((stResume ix).die 0).resumes[0]? = some (resumeOf ix) ∧ (resumeOf ix).groups = [savedOf ix] ∧ (savedOf ix).grp.slot = (resumeOf ix).slot ∧
      (savedOf ix).grp.node = (resumeOf ix).node ∧ resumePlace (stResume ix) 0 (resumeOf ix) = some [1] ∧
      (∀ co ∈ (savedOf ix).cohorts, co.anchor.ix = 1023 ∨ co.anchor.entry.stub.getLsbD 0 = false)) ∧
    lookup stEvict.groups 0 = some gLong ∧ waitingFor stEvict 0 gLong = some (.formed (candR 0)) ∧ evictable stEvict 0 = true ∧
    (stEvict.die 0).evictAt = some 65000 ∧ 65000 + 4096 ≤ stEvict.clk ∧ stEvict.groups = [(0, gLong)] := by
  refine ⟨?_, saved_of rfl rfl rfl rfl rfl rfl ?_ ?_, ?_, ?_, ?_, ?_, ?_, ?_, ?_⟩
  all_goals decide +kernel

/-! ## Decoding and the step -/

/-- Words of one and of two, a lane block, a loader's code, and an event, each the next move. -/
def stFetch (w : Nat) : State := { mk (co0 []) with agenda := [.scalar 0], mem := writeCells [] (cellsOf 0x10100 (leBytes 8 w)) }
def stFetch0 (w : Nat) : State := { stFetch w with agenda := [], cur := .cohort 0 }
def first (w : Nat) : State × Except AccFault (List Word) := moreWords (cx (co0 [])) 1 (stFetch0 w) 0x100
def further (w : Nat) : State × Except AccFault (List Word) :=
  moreWords (cx (co0 [])) (scalarWords (BitVec.ofNat 32 w) - 1) (first w).1 0x104
def wAdd : LaneWord := lw 0 0 0 0 0 0
def stLaneF : State := { mk (coW wAdd) with agenda := [.lane 0] }
def gFetch : Group := { grv with loader := { grv.loader with pc := 0x7FFC, imem := writeCells [] (cellsOf 0x7FFC (leBytes 4 0x00A50513)) } }
def stRvF : State := { mk (co0 []) gFetch with agenda := [.rv 0 false] }

theorem pair_of {α ε β : Type} {p : α × Except ε β} {b : β} (h : p.2.toOption = some b) : p = (p.1, .ok b) := by rw [← ok_of h]
def moreOf (w : Nat) : List Word := if w = 0x04A283E8 then [] else [0x12345678]

theorem test_wit_AStepRunsTheDecodedInstruction :
    (∀ w ∈ [0x04A283E8, 0x12345678_1A400000],
      (stFetch w).agenda = .scalar (cx (co0 [])).c :: [] ∧ ctxOf (stFetch w) 0 = some (cx (co0 [])) ∧ (cx (co0 [])).runnable = true ∧
      (cx (co0 [])).co.cont = false ∧ streamTurn { stFetch w with agenda := [] } 0 false = true ∧
      moreWords (cx (co0 [])) 1 (stFetch0 w) 0x100 = ((first w).1, .ok [BitVec.ofNat 32 w]) ∧
      moreWords (cx (co0 [])) (scalarWords (BitVec.ofNat 32 w) - 1) (first w).1 0x104 = ((further w).1, .ok (moreOf w)) ∧
      decodeScalar (BitVec.ofNat 32 w :: moreOf w) = .ok (if w = 0x04A283E8 then (.addi 20 20 1000, 1) else (.lix 8 0x12345678, 2))) ∧
    wordInMemory (stFetch0 0) 0 0 0x100 ⟨0x10100, 0⟩ ∧
    ctxOf stLaneF 0 = some (cx (coW wAdd)) ∧ (cx (coW wAdd)).laneRunnable = true ∧ (coW wAdd).laneQ = block 0 wAdd 0x80000003 :: [] ∧
    streamTurn { stLaneF with agenda := [] } 0 true = true ∧
    (decodeLane (nextLaneWord { stLaneF with agenda := [], cur := .cohort 0 } (cx (coW wAdd)) (block 0 wAdd 0x80000003)).2).toOption.isSome = true ∧
    rvOf stRvF 0 false = some (kRv gFetch) ∧ (kRv gFetch).runnable = true ∧ (kRv gFetch).r.pc.toNat % 2 = 0 ∧
    decodeRv (BitVec.ofNat 32 (leNat (bytesAt (kRv gFetch).r.imem 0x7FFC 4))) = .ok (.riscvInstruction (.imm .addi 10 10 10) false, 4) ∧
    (kRv gFetch).r.pc.toNat + 4 ≤ 0x8000 ∧ mayOccur stErr (.coreQuarantine 0) ∧ State.reset.agenda = [] ∧ State.reset.powered = true := by
  refine ⟨fun w hw => ?_, ⟨?_, ok_of ?_, ?_, ?_, ?_⟩, rfl, ?_, rfl, ?_, ?_, rfl, ?_, ?_, ok_of ?_, ?_, ⟨?_, ?_, ?_⟩, rfl, rfl⟩
  · simp only [List.mem_cons, List.mem_nil_iff, or_false] at hw
    rcases hw with rfl | rfl <;> exact ⟨rfl, rfl, by decide +kernel, rfl, by decide +kernel, pair_of (by decide +kernel), pair_of (by decide +kernel), ok_of (by decide +kernel)⟩
  all_goals decide +kernel

theorem test_wit_DecodingGivesBackWhatEncodingWrote :
    let i : Instr := .addi 20 20 1000
    let l : Instr := .vadd (lw 8 5 1 2 0 0)
    let r : Instr := .riscvInstruction (.imm .addi 10 10 1) true
    let q : Instr := .riscvInstruction (.imm .addi 10 10 10) false
    i.wellFormed = true ∧ encodeScalar i ≠ [] ∧ l.wellFormed = true ∧ (laneParts l).isSome = true ∧ q.wellFormed = true ∧
    encodeRv q = some (0x00A50513, 4) ∧ r.wellFormed = true ∧ (encodeRv r).map (·.2) = some 2 ∧ isEvent i = false := by
  decide +kernel

theorem test_wit_EveryStepKeepsMemoryCanonical :
    Memory.wf (stFetch 0x04A283E8).mem = true ∧ ∃ t, step { stErr with agenda := [.world (2 ^ 50) [0, 7]] } = .next t ∧ t.mem = [(2 ^ 50 + 1, 7)] :=
  ⟨by decide +kernel, _, rfl, by decide +kernel⟩

/-- A step from reset runs the word placed where it fetches: ADDI s20, s20, 1000 (chapter 20). -/
theorem test_step_runs_the_placed_word :
    (match step (State.reset.withFetchWord 32 0x04A283E8) with | .next t => t.cohorts.map (fun p => p.2.reg 20) | _ => []) = [1000] := by
  decide +kernel

theorem test_wit_AnEnabledFlagTraps_lanes : ∃ p ∈ floatForms, p.2.1 = 0x30 ∧
    Elementwise kT (fun l i => p.2.2 kT (element kT.w.tyn (kT.a l) i).2 (element kT.w.tyn (kT.b l) i).2 (element kT.w.tyn (kT.c l) i).2)
      (fun _ => 0x3F800000) 1 := by
  refine ⟨_, List.mem_cons_self, rfl, fun l i hl hi => ?_, by decide +kernel⟩
  have hl0 : l = 0 := by
    by_cases h : l < 32
    · have := below_of (n := 32) (p := fun l => kT.active l = true → l = 0) (by decide +kernel) l h; exact this hl
    · simp [LCtx.active, kT, blkT, block] at hl; omega
  have hi0 : i = 0 := by have : i < 1 := hi; omega
  subst hl0; subst hi0
  decide +kernel

/-- R97: the example of chapter 3. -/
theorem test_hbm_place : hbmMap (0x30056789 * 256) = ⟨15, 29, 1, 0xC0159⟩ ∧ hbmGranule ⟨15, 29, 1, 0xC0159⟩ = 0x30056789 ∧ stackDie 15 = 3 := by
  decide +kernel

/-- A load that a line of the L1D serves, and a lane block whose words the lane instruction cache holds. -/
def lineL : L1Line := ⟨0, 0xFFC0, 0x1FFC0, List.replicate 64 7, 0⟩
def stLine : State := mk coM group0 { core0 with l1d := [lineL], lic := [⟨0, 0x180, leBytes 12 5, 0x180⟩] }

theorem test_wit_ScalarLoads_line :
    readFirst stLine = stLine ∧ serves (readFirst stLine) (cx coM) (addrOf coM 4 0) ⟨0x1FFF8, 0⟩ 8 = some lineL := by
  refine ⟨rfl, ?_⟩
  decide +kernel

theorem test_wit_AStepRunsTheDecodedInstruction_lanes :
    ({ block 0 wAdd with va := some 0x180 } : LaneBlock).va = some 0x180 ∧ (block 0 wAdd).va = none ∧
    cachedWord (stLine.core 0) 0 ((0x180 + 12 * (block 0 wAdd).next) % 2 ^ 64) = some ⟨0, 0x180, leBytes 12 5, 0x180⟩ := by decide +kernel

theorem test_wit_QueueRegistersAndFetchTakeEffect_more :
    let s := { stQ [] with tenants := [(0, { tenantW with vf := 1 })] }
    queueReached s 127 = true ∧ queueReached s 64 = true ∧ queueReached (stQ []) 127 = false ∧ startedNow s = [] ∧
    startedNow { s with starts := { at_ := 1000, queues := [3] } } ≠ [] := by decide +kernel

/-- A spawner in a group that runs on, and a record whose credit comes back to its launch. -/
theorem test_wit_RecordsReachTheirCores_wakes :
    xOut.g.halt = none ∧ xOut.g.save = false ∧ (recR 62 0).origin ≠ 2 ∧ launchAt stSent (recR 62 0).sslot (recR 62 0).sgen = some launchR := by
  decide +kernel

/-- A GRAPH packet whose completion record was translated at its start. -/
def graphedS : State := match exec (.graph 127 6) (stP 127 1 (bodyP 1)) with | .next t => t | _ => State.reset
def graphedP : WinPkt := { startedP 1 with crecAt := [(0xD2000, 32)] }

theorem test_wit_PacketsTakeEffect_records :
    (∀ x ∈ [(0xD2000, 32)], cutOff (startedS 1) x.1 = false) ∧ graphedP ∈ (graphedS.queue 127).window ∧ graphedP.num = 6 ∧
    graphedP.type = 1 ∧ graphedP.state = .started ∧ (∀ x ∈ (graphedS.queue 127).window, x.num = 6 ∨ x.id = graphedP.id → x = graphedP) ∧
    (checkGraph graphedS 0 graphedP).toOption.isSome = true ∧ lookup graphedS.launches 1 = none ∧ lookup graphedS.launches 0 ≠ none ∧
    (graphedS.tenant 0).txctl.getLsbD 0 = true ∧ frontHeld graphedS 127 = false ∧ plainTarget graphedS (span 0xD2000 32) := by
  refine ⟨?_, ?_, ?_, ?_, ?_, ?_, ?_, ?_, ?_, ?_, ?_, ?_⟩ <;> try simp only [plainTarget, span]
  all_goals decide +kernel


/-! ## Witnesses of single clauses -/

/-- A core whose cohort has a store to go out, and a line of it in its L1D. -/
def storeQ : StoreReq := ⟨0, 0, cellsOf 0x10100 (leBytes 4 7), false, 0, 0, false, none⟩
def coreQ : Core := { core0 with queue := [storeQ], l1d := [⟨0, 0x100, 0x10100, List.replicate 64 1, 0⟩] }
def stOutQ : State := { mk coM group0 coreQ with agenda := [.storeOut 0 0, .tick] }

theorem test_wit_ScalarStores_leave : stOutQ.agenda = .storeOut 0 0 :: [.tick] ∧ queuedBy (stOutQ.core 0) 0 = storeQ :: [] ∧
    staysQueued stOutQ (stOutQ.core 0) storeQ = false ∧ storeQ.fill = false := by decide +kernel

/-- A cohort with 264 return addresses, whose youngest spilled entry lies in the private slot. -/
def coDeep : Cohort := { coC with retDepth := 264 }
def stDeep : State := { mk coDeep with mem := writeCells [] (cellsOf (0x18000 + 255 * 8) (leBytes 8 0x80)) }
def deepFirst : State := beforeRead stDeep 0 0 0 false 0 (span 0x187F8 8)

theorem test_wit_CallPushesAndRetPops_refill : Runs stDeep (cx coDeep) ∧ scalarReady (cx coDeep) {} = true ∧ 8 < coDeep.retDepth ∧
    coDeep.retDepth ≤ 264 ∧ spillVa (cx coDeep) 255 % 64 ≤ 0x187F8 ∧
    checkAccess stDeep 0 0 (spillVa (cx coDeep) 255) 8 8 .read = .ok ⟨0x187F8, 0⟩ ∧ Became deepFirst (cx coDeep) (cx coDeep) ∧
    rangeBad deepFirst 0x187F8 8 = false ∧ cutOff deepFirst 0x187F8 = false ∧
    leNat ((loadSees deepFirst (cx coDeep) (spillVa (cx coDeep) 255) ⟨0x187F8, 0⟩ 8).take 4) = 0x80 := by
  refine ⟨⟨rfl, rfl⟩, ?_, ?_, ?_, ?_, ok_of ?_, became_of (by rfl), ?_⟩
  all_goals decide +kernel

theorem test_wit_Barriers_acquire : barReady (mk coBar (groupBar ⟨4, 2, 1, 8, 8, 0, 0, 0, 0, 1, 1⟩) coreS)
    (cx coBar (groupBar ⟨4, 2, 1, 8, 8, 0, 0, 0, 0, 1, 1⟩)) 8 5 [6] 0x1FE0 true := by unfold barReady; decide +kernel

/-! ### Faults of scalar and lane accesses -/

/-- A tenant with a handler, whose translation tables are empty; a core whose page may be read only. -/
def tenantT : Tenant := { tenantW with txroot := 0x20000, thbase := 0x0000030000002001, thctl := 0x10020 }
def coreRo : Core := { tlb := [{ page0 with pte := 0x17 }] }
/-- A cohort with an address in s4:s5, and two offsets. -/
def coF (lo hi : Word) : Cohort := co0 [(4, lo), (5, hi), (6, 0x2000), (7, 3)]
def stF (lo hi : Word) (C : Core := core0) : State := { mk (coF lo hi) group0 C with tenants := [(0, tenantT)] }
/-- Each of the faults: an address past 2^60, one that is not aligned, a page that is not writable, and one that is not mapped. -/
def faultsF : List (Word × Word × Core) := [(0, 0x10000000, core0), (0xFFF9, 0, core0), (0x100, 0, coreRo), (0x50000, 0, core0)]
theorem fault_of {α : Type} {r : Except AccFault α} (h : (stopOf r).isSome = true) : r = .error ((stopOf r).getD { code := 0 }) := by
  cases r with
  | ok _ => exact nomatch h
  | error f => rfl

theorem test_wit_Trap_accesses :
    (∀ p ∈ faultsF, Runs (stF p.1 p.2.1 p.2.2) (cx (coF p.1 p.2.1)) ∧ handlerOpen (stF p.1 p.2.1 p.2.2) (cx (coF p.1 p.2.1)) ∧
      (coF p.1 p.2.1).laneIdle = true ∧
      scalarReady (cx (coF p.1 p.2.1)) { regs := pairOf 4 ++ dataOf 8 8, reads := pairOf 4, rd := true } = true ∧
      scalarReady (cx (coF p.1 p.2.1)) { regs := pairOf 4 ++ dataOf 8 8, reads := pairOf 4 ++ dataOf 8 8, wr := true } = true) ∧
    2 ^ 60 ≤ addrOf (coF 0 0x10000000) 4 0 ∧ addrOf (coF 0xFFF9 0) 4 0 < 2 ^ 60 ∧ addrOf (coF 0xFFF9 0) 4 0 % 8 ≠ 0 ∧
    (∃ f, checkAccess (stF 0x100 0 coreRo) 0 0 0x100 8 8 .write = .error f ∧ f.code = 4 ∧ trapsAt f) ∧
    (∃ f, checkAccess (stF 0x50000 0) 0 0 0x50000 8 8 .read = .error f ∧ f.code = 6) ∧ group0.save = false := by
  refine ⟨fun p hp => ⟨⟨rfl, rfl⟩, ?_⟩, ?_, ?_, ?_, ⟨_, fault_of ?_, ?_, ?_⟩, ⟨_, fault_of ?_, ?_⟩, rfl⟩
  · revert p; simp only [handlerOpen, nothingSent, nothingOut]; decide +kernel
  all_goals first | decide +kernel | (simp only [trapsAt]; decide +kernel)

/-- The same of the scratchpad, of the safe gap, of TRET outside a handler, and of TRAP in one. -/
theorem test_wit_Trap_others :
    let x := cx { coF 0 0 with gap := 100 }
    scalarReady (cx (coF 0 0)) { regs := 6 :: 7 :: dataOf 8 8, reads := [6, 7], rd := true } = true ∧
    scalarReady (cx (coF 0 0)) { regs := 6 :: 7 :: dataOf 8 (2 ^ (3 : BitVec 7).toNat), reads := 6 :: 7 :: dataOf 8 (2 ^ (3 : BitVec 7).toNat),
                                 wr := true } = true ∧
    ((((coF 0 0).reg 6).toNat + ((coF 0 0).reg 7).toNat) % 8 ≠ 0 ∧ (((coF 0 0).reg 6).toNat + ((coF 0 0).reg 20).toNat) % 8 = 0 ∧
      (cx (coF 0 0)).node.spsz < ((coF 0 0).reg 6).toNat + ((coF 0 0).reg 20).toNat + 8) ∧
    Runs { stF 0 0 with cohorts := [(0, { coF 0 0 with gap := 100 })] } x ∧
    scalarReady { x with co := { x.co with gap := 0 } } (useOf 8 [6, 7]) = true ∧ x.node.sgap ≤ x.co.gap ∧ x.co.laneIdle = true ∧
    handlerOpen { stF 0 0 with cohorts := [(0, { coF 0 0 with gap := 100 })] } x ∧
    Runs (stF 0 0) (cx (coF 0 0)) ∧ scalarReady (cx (coF 0 0)) { regs := (List.range 16).map (48 + ·), join := true } = true ∧
    Runs (mk (coH 0 2)) (cx (coH 0 2)) ∧ scalarReady (cx (coH 0 2)) { regs := [1], reads := [1] } = true ∧ (coH 0 2).laneIdle = true ∧
    (coH 0 2).handler = true := by
  refine ⟨?_, ?_, ?_, ⟨rfl, rfl⟩, ?_, ?_, ?_, ?_, ⟨rfl, rfl⟩, ?_, ⟨rfl, rfl⟩, ?_⟩ <;> try simp only [handlerOpen, nothingSent, nothingOut]
  all_goals decide +kernel

/-- A VLD of 16 bytes whose lane 1 is not aligned, or meets no page, or a page that may not be read; and a word that names v200 in a
cohort of 8 vector registers. -/
def coVf (a : Nat) : Cohort := { coW wVld with v := [(129, BitVec.ofNat 32 a)] }
def kVf (a : Nat) : LCtx := ⟨cx (coVf a), block 0 wVld 0x80000003, wVld⟩
def stVf (a : Nat) (C : Core := core0) : State := { mk (coVf a) group0 C with tenants := [(0, tenantT)] }
def coFew : Cohort := { coW (lw 1 200 1 2 0 0) with nv := 8 }
def kFew : LCtx := ⟨cx coFew, block 0 (lw 1 200 1 2 0 0) 0x80000003, lw 1 200 1 2 0 0⟩

/-- What stops the VLD. -/
def faultV (a : Nat) : Option AccFault := stopOf (allPieces (stVf a) (kVf a) wVld.sm 16 16 .read (fun _ => false))

theorem test_wit_AnEnabledFlagTraps_accesses (a : Nat) (ha : a ∈ [20, 0x50000]) :
    LaneGo (stVf a) (kVf a) 0x80 ∧ handlerOpen (stVf a) (kVf a).x ∧ (coVf a).exports = [] ∧ wVld.sm ≠ 5 := by
  refine ⟨⟨⟨⟨rfl, rfl⟩, rfl⟩, ?_, fun _ => rfl⟩, ?_⟩
  · revert a; decide +kernel
  · revert a; simp only [handlerOpen, nothingSent, nothingOut]; decide +kernel

theorem test_wit_AnEnabledFlagTraps_faults :
    (∃ f ∈ faultV 20, trapsAt f ∧ f.code = 3 ∧ f.lo = 20) ∧ (∃ f ∈ faultV 0x50000, f.code = 6) := by
  simp only [trapsAt, Option.mem_def]
  exact ⟨⟨_, some_get { code := 0 } (by decide +kernel), by decide +kernel⟩, ⟨_, some_get { code := 0 } (by decide +kernel), by decide +kernel⟩⟩

theorem test_wit_AnEnabledFlagTraps_registers :
    LaneRuns { stF 0 0 with cohorts := [(0, coFew)] } kFew ∧ kFew.x.laneRunnable = true ∧
    (∃ r ∈ laneReads 0x01 kFew.w ++ laneWrites 0x01 kFew.w, kFew.x.co.nv ≤ r) ∧
    handlerOpen { stF 0 0 with cohorts := [(0, coFew)] } kFew.x := by
  refine ⟨⟨⟨rfl, rfl⟩, rfl⟩, ?_⟩
  simp only [handlerOpen, nothingSent, nothingOut]; decide +kernel

/-! ### Atomics, spawns and tile commands -/

theorem test_wit_LaneAtomics_performed :
    let r := released (memSt wAtomG memC) 4
    nothingOut (r.core 0) 0 ∧ storesOff r 0 (pasOf (piecesA wAtomG)) = true ∧ plainTarget r (pasOf (piecesA wAtomG)) := by
  simp only [nothingOut, plainTarget]; decide +kernel

/-- A queue that holds as many records as its node's high-water mark admits. -/
def stFullQ : State := { stSp with dies := [(0, { pages := [pageR2 80 0 ((List.range 100).map (fun i => recR (100 + i) 0))] })] }

theorem test_wit_SpawnsHandOverTheirRecords_parks :
    Runs stFullQ (cx coSp memG) ∧
    spawnCheck stFullQ (cx coSp memG) (spawnTag (cx coSp memG)).2 (BitVec.ofNat 64 (pairNat coSp 4)) 8 = .ok 1 ∧
    release stFullQ 0 0 0 3 = some (released stFullQ 3) ∧ Became (released stFullQ 3) (cx coSp memG) (cx coSp memG) ∧
    recSp.id = (released stFullQ 3).fresh ∧ destOf (released stFullQ 3) recSp = .die 0 ∧
    roomFor (released stFullQ 3) recSp (.die 0) (((released stFullQ 3).die 0).parked.filter (· != 0)) = false := by
  refine ⟨⟨rfl, rfl⟩, ok_of ?_, rfl, became_of (by rfl), ?_⟩
  all_goals decide +kernel

/-- A command whose total brings the expected bytes past 2^32 - 1, and one whose barrier object is in error. -/
def gFull (bad : List (Nat × Nat)) : Group :=
  { writeBar (group0.setRv false (tileRv (descT 0x10000 1) 7)) 0x1FE0 ⟨4, 2, 1, 0xFFFFFFFF, 8, 0, 0, 0, 0, 1, 1⟩ with bad := bad }
def kFull (bad : List (Nat × Nat)) : RvCtx := ⟨0, false, gFull bad, launch0, (gFull bad).rv false⟩

theorem test_wit_TileInstructions_stops :
    RvRuns (runRv (gFull [])) (kFull []) ∧ issueReady (kFull []) 5 (some false) ∧ freeSlotOf (kFull []) 7 ∧
    tileFault node0 (newCmd (kFull []) 5 0) = none ∧ ((newCmd (kFull []) 5 0).be && (newCmd (kFull []) 5 0).exp) = true ∧
    barOpen (runRv (gFull [])) (kFull []) (newCmd (kFull []) 5 0) ∧
    2 ^ 32 ≤ (readBar (gFull []) (newCmd (kFull []) 5 0).boff).expb + (newCmd (kFull []) 5 0).total ∧
    RvRuns (runRv (gFull [(0, 0x1FE8)])) (kFull [(0, 0x1FE8)]) ∧ (gFull [(0, 0x1FE8)]).portOpen 0x1FE0 0 0x2000 = true ∧
    (gFull [(0, 0x1FE8)]).rangeBad 0 (newCmd (kFull []) 5 0).boff 32 = true := by
  refine ⟨⟨rfl, rfl, rfl⟩, ?_, ?_, ?_, ?_, ?_, ?_, ⟨rfl, rfl, rfl⟩, ?_⟩ <;> try simp only [issueReady, inRam, freeSlotOf, barOpen]
  all_goals decide +kernel

/-- Commands that stopped at issue: one still misaligned, one now right that counts, one that does not; a running one of which a row has
landed early. -/
def cmdI (ga be : Nat) : TileCmd :=
  { desc := BitVec.ofNat 512 (descT ga be), ticket := 3, kind := 0, st := 3, fcode := 3, atIssue := true }
def cmdE : TileCmd := { cmdQ 3 2 256 with early := [⟨0, []⟩] }

theorem test_wit_QueueInstructions_again :
    (∀ c ∈ [cmdI 0x10008 0, cmdI 0x10000 0, cmdI 0x10000 1, cmdE], RvRuns (runRv (gQueue [(5, c)])) (kRv (gQueue [(5, c)])) ∧
      c.ticket = (kRv (gQueue [(5, c)])).r.xreg 6) ∧ (cmdI 0x10000 1).st = 3 ∧ (cmdI 0x10000 1).atIssue = true ∧
    barOpen (runRv (gQueue [(5, cmdI 0x10000 1)])) (kRv (gQueue [(5, cmdI 0x10000 1)])) (cmdI 0x10000 1) ∧
    tileFault node0 (cmdI 0x10008 0) = some 3 ∧ tileFault node0 (cmdI 0x10000 0) = none ∧
    ((cmdI 0x10000 0).be && (cmdI 0x10000 0).exp) = false ∧ tileFault node0 (cmdI 0x10000 1) = none ∧
    ((cmdI 0x10000 1).be && (cmdI 0x10000 1).exp) = true ∧
    (readBar (gQueue [(5, cmdI 0x10000 1)]) (cmdI 0x10000 1).boff).expb + (cmdI 0x10000 1).total < 2 ^ 32 ∧
    cmdE.st = 2 ∧ cmdE.early ≠ [] := by
  refine ⟨fun c hc => ⟨⟨rfl, rfl, rfl⟩, ?_⟩, ?_⟩
  · revert c; decide +kernel
  · simp only [barOpen]; decide +kernel

/-- An object of which every arrival has come and bytes are outstanding. -/
theorem test_wit_LoadersUseBarrierObjects_refused :
    let g := writeBar { group0 with loader := { mode := .running, x := [(5, 0x1FE0), (6, 3)], pc := 0x7FC } } 0x1FE0 ⟨4, 2, 2, 264, 8, 0, 0, 0, 0, 1, 1⟩
    RvRuns (runRv g) (kRv g) ∧ g.rangeBad 0 0x1FE0 32 = false ∧ g.portOpen 0x1FE0 0 0x6000 = true ∧
    (readBar g 0x1FE0).arr = (readBar g 0x1FE0).expa ∧ (readBar g 0x1FE0).landb < (readBar g 0x1FE0).expb := by
  refine ⟨⟨rfl, rfl, rfl⟩, ?_⟩
  decide +kernel

theorem test_wit_WhatComesBackToACohort_unhalted : (coPark .handler).halted = false ∧ group0.halt = none ∧ gBar4.halt = none ∧
    (cx (coPark .handler)).l.ending = none := by decide

theorem test_wit_RequestsArePerformedAtTheirTargets_requests :
    ∀ p ∈ [([], fullCell), ([], []), ((List.range 256).map (fun i => futQ i 0x200F0), [])],
      futureWaits (stFut p.1 p.2) ((stFut p.1 p.2).core 0) (futQ 1 0x100F0) = false ∧ (futQ 1 0x100F0).away = false ∧ (futQ 1 0x100F0).pkg = none ∧
      homeReady (stFut p.1 p.2) 0x100F0 = true ∧ group0.save = false := by decide +kernel

/-- An MRES of two entries of I8: the first names column 1 of C and column 2 of A, or its reserved bytes are not zero. -/
def gRes (rsv : Nat) : Group :=
  { group0 with ab := writeCells [] (cellsOf 2 [0xFD]), wb := writeCells [] (cellsOf 0 (leBytes 8 (0x80000001 + 2 ^ 32 + 2 * 2 ^ 40 + rsv * 2 ^ 48))) }
def coRes : Cohort := { co0 [(17, 16), (19, 2), (20, 0), (21, 64)] with lcom := 3, lcpl := 2 }
def opRes : MatOp := { opOf coRes 0x52 0x40 with batch := 4 }
def stRes (rsv : Nat) : State := mk coRes (gRes rsv) { core0 with engine := [opRes] }

theorem test_wit_TheMatrixEngine_residuals :
    (∀ rsv ∈ [0, 1], EngineHas (stRes rsv) 0 (cx coRes (gRes rsv)) opRes ∧ (gRes rsv).rangeBad 1 opRes.entryAt 8 = false) ∧
    opRes.opc = 0x52 ∧ opRes.seen = [] ∧ opRes.old = [] ∧ coRes.heldOps = [] ∧ opRes.at_ = 4 ∧ opRes.rows = 16 ∧
    (get 0 (gRes 0).wb (opRes.entryAt + 4)).toNat = 1 ∧ (get 0 (gRes 0).wb (opRes.entryAt + 5)).toNat = 2 ∧
    leNat (bytesAt (gRes 1).wb (opRes.entryAt + 6) 2) ≠ 0 ∧ leNat (bytesAt (gRes 0).wb (opRes.entryAt + 6) 2) = 0 ∧
    4 * 1 + 4 ≤ opRes.cStride ∧ (2 + 1) * codeBits opRes.at_ ≤ opRes.aStride * 8 ∧
    (∀ r < opRes.rows, (gRes 0).rangeBad 2 (opRes.aBase + r * opRes.aStride + 2 * codeBits opRes.at_ / 8) (max 1 (codeBits opRes.at_ / 8)) = false ∧
      (gRes 0).rangeBad 3 (opRes.cAt r 1) 4 = false) := by
  refine ⟨fun rsv hr => ⟨⟨rfl, rfl, rfl, ?_⟩, ?_⟩, ?_⟩
  · decide +kernel
  · revert rsv; decide +kernel
  · decide +kernel

/-! ### Translation, errors, the debugger and the front end -/

/-- A tenant with translation on, an entry posted and one to post, of which nothing of it waits. -/
def stTxOff : State := { stFault with cohorts := [] }
theorem test_wit_TranslationEventsTakeEffect_off :
    (stTxOff.tenant 0).txctl.getLsbD 0 = true ∧ (0x0000FF00 : Dword).getLsbD 0 = false ∧ tenantCohorts stTxOff 0 = [] ∧
    (∀ e ∈ (stTxOff.tenant 0).faults, waitingCohorts stTxOff e.id = [] ∧
      ∀ g ∈ stTxOff.groups, ∀ c ∈ g.2.loader.slots ++ g.2.storer.slots, ∀ w ∈ c.2.waits, w.id ≠ e.id) ∧
    (stTxOff.tenant 0).faults = [entF 7 (some 8), entF 8 none] := by decide +kernel

theorem test_wit_ErrorsAreRecordedAndRecovered_reset :
    let s := { stErr with dies := [(0, { inReset := true })] }
    (s.die 0).inReset = true ∧ 16 ≤ (s.core 0).errs ∧ 0 ∉ s.anvil.quar := by decide +kernel

/-- A halted cohort to whose s63 a load, and to whose v255 a lane result, is on its way. -/
def coDw : Cohort := { coD with pend := [{ tag := 4, scalar := true, regs := [63] }, { tag := 5, scalar := false, regs := [255] }] }
theorem test_wit_TraceAndDebugCommandsTakeEffect_waits :
    (∀ p ∈ [(0, 63), (1, 255)], resultComes stDbg (dbgCmdOf (cmdD 1 p.1 p.2)) 0 coDw = true ∧ resultComes stDbg (dbgCmdOf (cmdD 1 p.1 p.2)) 0 coD = false ∧
      (dbgCmdOf (cmdD 1 p.1 p.2)).space = p.1) ∧
    (∀ p ∈ [(0, 20), (1, 21), (2, 3)], resultComes { stDbg with cohorts := [(0, coDw)] } (dbgCmdOf (cmdD 1 p.1 p.2)) 0 { coDw with exports := [⟨20, 5, true, 1⟩] } =
      decide (p.1 ≠ 1)) ∧
    (∀ p ∈ ({ stDbg with cohorts := [(0, coDw)] } : State).cohorts, p.2.grp = 0 → p.2.ix = 0 → p.2.ended = false → p = (0, coDw)) := by
  decide +kernel

theorem test_wit_QueueRegistersAndFetchTakeEffect_reads :
    let f := stQ [] (cellsOf 0xD0800 nopB)
    let late := stQ [] (cellsOf 0xD0800 (rawB 0 0xFFFFFFFE 0 7 1 2 0 0x4A95B2A3)) (fun w => { queueW w with tries := 4, triedAt := 900 })
    frontWaits f (queueTenant 127) ((f.queue 127).qbase.toNat + 128 * (0xFFFFFFFF % 2 ^ 4)) 128 .read = false ∧
    4 ≤ (late.queue 127).tries ∧ (late.queue 127).triedAt + 64 ≤ late.clk ∧ (late.queue 127).next? = some 0xFFFFFFFF ∧
    frontHeld late 127 = false := by decide +kernel

/-- A SIGNAL that raises the timeline of its queue, and a GRAPH without a completion record. -/
def doneSig : State := stQ [pktW 2 3 6 0 0 0 9 6 .done]
def noRecG : State := (begun (stP 127 1 (0xE1000 + 0xE1200 * 2 ^ 64 + 2 ^ 128 + 16 * 2 ^ 144)) 127 6 1).1
def noRecP : WinPkt := (begun (stP 127 1 (0xE1000 + 0xE1200 * 2 ^ 64 + 2 ^ 128 + 16 * 2 ^ 144)) 127 6 1).2

theorem test_wit_PacketsTakeEffect_done :
    doneQ.starts.host ≠ some doneQ.clk ∧ startedNow doneSig = [] ∧ doneSig.starts.host ≠ some doneSig.clk ∧
    pktW 2 3 6 0 0 0 9 6 .done ∈ (doneSig.queue 127).window ∧ (∀ x ∈ (doneSig.queue 127).window, x.num = 6 → x = pktW 2 3 6 0 0 0 9 6 .done) ∧
    0 < (BitVec.ofNat 64 ((pktW 2 3 6 0 0 0 9 6 .done).num' 32 8) - (doneSig.queue 127).tl).toInt ∧ quiet doneSig 127 := by
  refine ⟨?_, ?_, ?_, ?_, ?_, ?_, quiet_of ?_⟩
  all_goals decide +kernel

theorem test_wit_PacketsTakeEffect_created :
    (∀ a ∈ graphSpans graphedS 0 graphedP, frontWaits graphedS 0 a.1 a.2 .read = false) ∧ crecPieces graphedS 0 graphedP = .ok [(0xD2000, 32)] ∧
    (∀ a ∈ graphSpans badGraph 0 (startedP 1), frontWaits badGraph 0 a.1 a.2 .read = false) ∧
    (∃ ps, crecPieces badGraph 0 (startedP 1) = .ok ps) ∧
    noRecP.num' 56 8 = 0 ∧ crecPieces noRecG 0 noRecP = .ok [] ∧ (checkGraph noRecG 0 noRecP).toOption.isSome = true ∧
    noRecP ∈ (noRecG.queue 127).window ∧ noRecP.state = .started := by
  refine ⟨?_, ok_of ?_, ?_, ⟨_, ok_get [] ?_⟩, ?_, ok_of ?_, ?_⟩
  all_goals decide +kernel

/-! ### Records, launches and groups -/

theorem test_wit_RecordsReachTheirCores_once :
    (∀ kind < 2, ((stR { pages := [pageR2 80 kind [recR 60 kind 70, recR 61 kind 70]], cands := [candR kind] }).die 0).inReset = false ∧
      ((stR { pages := [pageR2 80 kind [recR 60 kind 70, recR 61 kind 70]], cands := [candR kind] }).die 0).launched ≠ some 100) ∧
    (∀ ix ∈ [1023, 2], ((stResume ix).die 0).launched ≠ some (stResume ix).clk) ∧
    (let a := stR { transit := [{ recR 60 0 with hold := true, from_ := 0 }] }
     (a.die 0).transit[0]? = some { recR 60 0 with hold := true, from_ := 0 } ∧ lookup a.cohorts 0 = some (co0 []) ∧
     admits a 0 launchR { recR 60 0 with hold := true, from_ := 0 } = true) := by decide +kernel

/-- A launch that ends beside a core with a store of another tenant and a keyed addition of another launch, and a slice with one of
another launch; and two choices of a spawner's die. -/
def stEndB : State :=
  { stEnd (some (0, 7)) with
      cores := [(0, { core0 with stores := [storeW (cellsOf 0x10010 [1])], redos := [redoQ 1] })], slices := [(300, { redo := [redoQ 1] })] }

theorem test_wit_LaunchesEnd_atRest :
    (∀ how < 3, atRest (stEnd (some (how, 7))) 0 0) ∧ atRest stEndB 0 0 ∧ remoteOutstanding (drainTenant stEndB 0 0) 0 = false ∧
    lookup stEndB.launches 0 = some (launchE (some (0, 7))) ∧ plainAt stEndB 0 (launchE (some (0, 7))).crec.toNat 32 0xD2000 := by
  refine ⟨fun _ _ => ⟨fun _ h => (nomatch h), fun _ h => (nomatch h), rfl⟩, ?_, ?_, rfl, ok_of ?_, ?_⟩ <;>
    try simp only [atRest, plainTarget, span]
  all_goals decide +kernel

end Sys2Proof.Tests
end

section
/-! Proofs of the family 00_scope: what GETR and SETR do with the special registers. -/

open Sys2Proof.Slice0

namespace Sys2Proof.Machine

/-! ### Special registers (R282 to R286) -/

/-- The cohort once GETR has read a special register: a read of CYCLE latches its high half (R285). -/
def cycleLatched (s : State) (ix : BitVec 6) (co : Cohort) : Cohort :=
  if ix == 15 then { co with cycleh := BitVec.ofNat 32 (s.clk / 2 ^ 32) } else co

theorem exec_getr_ready {s : State} {x : Ctx} {d : SReg} {ix : BitVec 6} (hr : Runs s x)
    (h : scalarReady x { regs := [d.toNat], join := ix == 1 } = true) :
    ∃ t co, exec (.getr d ix) s = .next t ∧ OnlyCohort s t x.c co ∧
      WroteRegs (cycleLatched s ix x.co) co [(d.toNat, specialReg s x.co x.g ix.toNat)] 1 := by
  rw [exec_getr, execGetr, issueS_ready _ hr h]
  exact ⟨_, _, rfl, onlyCohort_retire _ (lookup_of_ctx hr.2), wroteRegs_one (cycleLatched s ix x.co) _ _ _ rfl⟩

theorem writesRegs_getr {s : State} {x : Ctx} {d : SReg} {ix : BitVec 6} {v : Word} (hr : Runs s x)
    (h : scalarReady x { regs := [d.toNat], join := ix == 1 } = true) (hix : ix ≠ 15) (hv : specialReg s x.co x.g ix.toNat = v) :
    WritesRegs s x (.getr d ix) [(d.toNat, v)] 1 := by
  have hl : cycleLatched s ix x.co = x.co := by rw [cycleLatched, beq_false_of_ne hix]; rfl
  have hg := exec_getr_ready hr h
  rwa [hl, hv] at hg

theorem leaves_setr {s : State} {x : Ctx} {a : SReg} {ix : BitVec 6} (hr : Runs s x)
    (h : scalarReady x { regs := [a.toNat], reads := [a.toNat], join := ix == 1 } = true) :
    Leaves s x (.setr a ix) (setSpecial x.co ix.toNat (x.co.reg a.toNat)) := by
  rw [Leaves, exec_setr, execSetr, issueS_ready _ hr h]
  exact ⟨_, _, rfl, onlyCohort_retire _ (lookup_of_ctx hr.2), moved_advance _ _ rfl⟩

theorem specialReg_of_specials (s : State) (co : Cohort) (g : Group) :
    ∀ p ∈ specials, specialReg s co g p.1.toNat = p.2.2.1 co ∧ p.1 ≠ 15 := by
  intro p hp
  simp only [specials, List.mem_cons, List.not_mem_nil, or_false] at hp
  rcases hp with rfl | rfl | rfl | rfl | rfl | rfl | rfl | rfl | rfl | rfl | rfl | rfl | rfl | rfl
  all_goals exact ⟨rfl, by decide⟩

theorem setSpecial_of_specials (co : Cohort) (v : Word) :
    ∀ p ∈ specials, setSpecial co p.1.toNat v = p.2.2.2 co (v &&& p.2.1) := by
  have hall : v &&& 0xFFFFFFFF = v := BitVec.and_allOnes
  intro p hp
  simp only [specials, List.mem_cons, List.not_mem_nil, or_false] at hp
  rcases hp with rfl | rfl | rfl | rfl | rfl | rfl | rfl | rfl | rfl | rfl | rfl | rfl | rfl | rfl
  all_goals
    simp only [setSpecial, hall]
    rfl

/-- SETR keeps what is read-only: RSTK, CYCLE, CYCLEH, WID, COHIX, GANG and ROLE (R282). -/
theorem setSpecial_readOnly (co : Cohort) (v : Word) {ix : Nat} (h : 14 ≤ ix) : setSpecial co ix v = co := by
  obtain ⟨k, rfl⟩ := Nat.exists_eq_add_of_le' h
  rfl

theorem specialReg_of_readOnly (s : State) (x : Ctx) :
    ∀ p ∈ readOnly x, specialReg s x.co x.g p.1.toNat = p.2 ∧ p.1 ≠ 15 ∧ p.1 ≠ 1 := by
  have hrstk : rstk x.co = BitVec.ofNat 32 (65536 * x.co.depth + (match x.co.ids with | [] => 0 | i :: _ => 32768 + i.toNat)) := by
    rw [rstk, Nat.mul_comm]
    cases x.co.ids <;> rfl
  have hwid : (x.co.wid >>> 32).setWidth 32 = BitVec.ofNat 32 (x.co.wid.toNat / 2 ^ 32) := by
    apply BitVec.eq_of_toNat_eq
    simp [Nat.shiftRight_eq_div_pow]
  have hgang : BitVec.ofNat 32 (x.g.member * 16 + x.g.size) = BitVec.ofNat 32 (16 * x.g.member + x.g.size) := by
    rw [Nat.mul_comm]
  simp only [readOnly, List.forall_mem_cons]
  exact ⟨⟨hrstk, by decide⟩, ⟨rfl, by decide⟩, ⟨rfl, by decide⟩, ⟨hwid, by decide⟩, ⟨rfl, by decide⟩, ⟨hgang, by decide⟩,
    ⟨rfl, by decide⟩, List.forall_mem_nil _⟩

/-- Settles O12: GETR and SETR are one register written, or one special register set, in the cohort that executes. -/
theorem specialRegistersAreReadAndWritten : Obligations.SpecialRegistersAreReadAndWritten := by
  refine ⟨fun p hp s x d hr h => ?_, fun s x d hr h => ⟨fun p hp => ?_, ?_⟩, fun p hp s x a hr h => ?_,
    fun s x a ix hr h hlo _ => ?_⟩
  · obtain ⟨hv, h15⟩ := specialReg_of_specials s x.co x.g p hp
    exact writesRegs_getr hr h h15 hv
  · obtain ⟨hv, h15, h1⟩ := specialReg_of_readOnly s x p hp
    exact writesRegs_getr hr (by rwa [beq_false_of_ne h1]) h15 hv
  · exact exec_getr_ready hr h
  · rw [← setSpecial_of_specials x.co _ p hp]
    exact leaves_setr hr h
  · have hne : (ix == 1) = false := by
      rw [beq_eq_false_iff_ne]; rintro rfl; exact absurd hlo (by decide)
    have hs := leaves_setr (ix := ix) hr (by rw [hne]; exact h)
    rwa [setSpecial_readOnly _ _ hlo] at hs

end Sys2Proof.Machine
end

section
/-! Proofs of the family 00_scope: what the host reads at reset. -/

open Sys2Proof.Slice0

namespace Sys2Proof.Machine

/-! ### Registers at reset (R7, R451, R463) -/

@[simp] theorem get_nil {α : Type} (d : α) (k : Nat) : get d [] k = d := rfl
@[simp] theorem tenant_reset (t : Nat) : State.reset.tenant t = {} := rfl
@[simp] theorem queue_reset (q : Nat) : State.reset.queue q = {} := rfl

theorem txValue_default (full : Bool) (o : Nat) : txValue {} full o = 0 := by
  unfold txValue
  split
  all_goals simp

theorem queueValue_default (o : Nat) : queueValue {} o = 0 := by
  unfold queueValue
  split
  all_goals rfl

theorem debugValue_reset (t o : Nat) : debugValue State.reset t o = 0 := by
  unfold debugValue
  split
  all_goals simp [dbgstValue, dbghValue, lookup]

theorem tlinkValue_default (o : Nat) : tlinkValue {} o = 0 := by
  unfold tlinkValue
  split
  all_goals rfl

theorem linkValue_default (o : Nat) : linkValue {} o = if o = 0 then 1023 else 0 := by
  unfold linkValue
  split
  · rfl
  · rfl
  next h0 _ => simp [show o ≠ 0 from h0]

theorem anvilValue_default (o : Nat) : anvilValue {} o = if o = 0xB0 then 1500 else 0 := by
  unfold anvilValue
  split
  case h_9 hmhz => simp [show o ≠ 176 from hmhz]
  all_goals rfl

theorem regValue_reset (b : Block) (o : Nat) :
    regValue State.reset b o = if b = .link ∧ o = 0 then 1023 else if b = .anvil ∧ o = 0xB0 then 1500 else 0 := by
  cases b with
  | tx t full => exact txValue_default full o
  | queue q => exact queueValue_default o
  | ldest fn => rfl
  | trap t =>
    simp only [regValue]
    split
    all_goals rfl
  | debug t pf => exact debugValue_reset t o
  | link => exact (linkValue_default o).trans (by simp)
  | tlink t => exact tlinkValue_default o
  | inbound n =>
    simp only [regValue]
    split
    all_goals rfl
  | anvil => exact (anvilValue_default o).trans (by simp)

/-- Where the link block and Anvil's block stand in the physical function's BAR0 (R451, R463). -/
theorem offset_of_blockAt {s : State} {off o : Nat} {b : Block} (h : blockAt s 0 off = some (b, o)) :
    (b = .link → off = 0x05000000 + o) ∧ (b = .anvil → off = 0x06000000 + o) := by
  simp only [blockAt, beq_self_eq_true, if_true, Bool.and_eq_true, decide_eq_true_eq] at h
  repeat' split at h
  all_goals simp only [Option.some.injEq, Prod.mk.injEq, reduceCtorEq] at h
  all_goals
    obtain ⟨rfl, rfl⟩ := h
    refine ⟨fun hb => ?_, fun hb => ?_⟩ <;> cases hb
  · omega
  · omega

/-- A read of 8 bytes, aligned, gives the register at its offset (R502). -/
theorem hostRead_eight (s : State) (fn off : Nat) (h : off % 8 = 0) :
    hostRead s fn off 8 = match blockAt s fn off with | none => 0 | some (b, o) => regValue s b o := by
  have hoff : off / 8 * 8 = off := by omega
  simp only [hostRead, hostAccess, h, hoff]
  rfl

theorem hostRead_misaligned (s : State) (fn off : Nat) (h : off % 8 ≠ 0) : hostRead s fn off 8 = 0 := by
  simp [hostRead, hostAccess, h]

theorem hostRead_reset_other {off : Nat} (hp : off ≠ 0x05000000) (hm : off ≠ 0x060000B0) : hostRead State.reset 0 off 8 = 0 := by
  by_cases h : off % 8 = 0
  · rw [hostRead_eight _ _ _ h]
    cases hb : blockAt State.reset 0 off with
    | none => rfl
    | some p =>
      obtain ⟨hlink, hanvil⟩ := offset_of_blockAt hb
      have hpkgid : ¬ (p.1 = .link ∧ p.2 = 0) := fun ⟨hblock, ho⟩ => hp (by rw [hlink hblock, ho])
      have hmhz : ¬ (p.1 = .anvil ∧ p.2 = 0xB0) := fun ⟨hblock, ho⟩ => hm (by rw [hanvil hblock, ho])
      exact (regValue_reset p.1 p.2).trans (by rw [if_neg hpkgid, if_neg hmhz])
  · exact hostRead_misaligned _ _ _ h

theorem hostRead_reset_physical (off : Nat) :
    hostRead State.reset 0 off 8 = if off = 0x05000000 then 1023 else if off = 0x060000B0 then 1500 else 0 := by
  split
  next hp => rw [hp]; rfl
  next hp =>
    split
    next hm => rw [hm]; rfl
    next hm => exact hostRead_reset_other hp hm

theorem hostRead_reset_virtual (fn off size : Nat) (h : fn ≠ 0) : hostRead State.reset fn off size = 0 := by
  have hnone : blockAt State.reset fn (off / 8 * 8) = none := by
    simp [blockAt, h, boundTenant, State.reset]
  simp [hostRead, hnone]

/-- Settles O59: an offset of BAR0 names at most one register, and every block's registers read 0 at reset but two. -/
theorem resetHoldsTheSpecsValues : Obligations.ResetHoldsTheSpecsValues :=
  ⟨hostRead_reset_physical, hostRead_reset_virtual, rfl, rfl, rfl, fun _ => rfl, rfl, rfl, rfl, fun _ => rfl⟩

end Sys2Proof.Machine
end

section
/-! Proofs of the family 00_scope: a write to plain lines of HBM4E changes the bytes that it names and nothing else. -/

open Sys2Proof.Slice0

namespace Sys2Proof.Machine

/-! ### Cells -/

theorem mem_dedup_foldl {α : Type} [DecidableEq α] (x : α) (l acc : List α) :
    x ∈ l.foldl (fun acc y => if acc.contains y then acc else y :: acc) acc ↔ x ∈ acc ∨ x ∈ l := by
  induction l generalizing acc with
  | nil => simp
  | cons y r ih =>
    rw [List.foldl_cons, ih]
    split
    next hy =>
      have hacc : y ∈ acc := List.contains_iff_mem.mp hy
      have hxy : x = y → x ∈ acc := fun e => e ▸ hacc
      rw [List.mem_cons, ← or_assoc, or_iff_left_of_imp hxy]
    next => rw [List.mem_cons, List.mem_cons, or_assoc, or_left_comm]

@[simp] theorem mem_dedup {α : Type} [DecidableEq α] (x : α) (l : List α) : x ∈ dedup l ↔ x ∈ l := by
  rw [dedup, List.mem_reverse, mem_dedup_foldl]
  simp

/-- Grouping cells by lines loses none and adds none. -/
theorem mem_flatten_byLine (cs : List Host.Cell) (c : Host.Cell) : c ∈ (byLine cs).flatten ↔ c ∈ cs := by
  simp only [byLine, List.mem_flatten, List.mem_map, mem_dedup]
  constructor
  · rintro ⟨_, ⟨l, _, rfl⟩, h⟩
    exact (List.mem_filter.mp h).1
  · intro h
    exact ⟨_, ⟨c.1 / 64, ⟨c, h, rfl⟩, rfl⟩, by simp [h]⟩

theorem mem_cellsOf (a : Nat) (b : List Byte) (c : Host.Cell) :
    c ∈ cellsOf a b ↔ a ≤ c.1 ∧ c.1 < a + b.length ∧ c.2 = b.getD (c.1 - a) 0 := by
  induction b generalizing a with
  | nil =>
    simp only [cellsOf, List.not_mem_nil, List.length_nil, false_iff]
    omega
  | cons x r ih =>
    obtain ⟨k, v⟩ := c
    simp only [cellsOf, List.mem_cons, ih, Prod.mk.injEq, List.length_cons]
    rcases Nat.lt_trichotomy k a with h | h | h
    · constructor
      · rintro (⟨rfl, _⟩ | ⟨_, _, _⟩) <;> omega
      · rintro ⟨_, _, _⟩; omega
    · subst h
      rw [Nat.sub_self, List.getD_cons_zero]
      constructor
      · rintro (⟨_, hv⟩ | ⟨_, _, _⟩)
        · exact ⟨by omega, by omega, hv⟩
        · omega
      · rintro ⟨_, _, hv⟩
        exact .inl ⟨rfl, hv⟩
    · have e : k - a = (k - (a + 1)) + 1 := by omega
      rw [e, List.getD_cons_succ]
      constructor
      · rintro (⟨rfl, _⟩ | ⟨_, _, hv⟩)
        · omega
        · exact ⟨by omega, by omega, hv⟩
      · rintro ⟨_, _, hv⟩
        exact .inr ⟨by omega, by omega, hv⟩

theorem get_writeCells_of_mem {m cs : List Host.Cell} {a : Nat} {v : Byte} (hm : (a, v) ∈ cs)
    (hu : ∀ c ∈ cs, c.1 = a → c.2 = v) : get 0 (writeCells m cs) a = v := by
  induction cs generalizing m with
  | nil => cases hm
  | cons c r ih =>
    by_cases hr : (a, v) ∈ r
    · exact ih hr (fun d hd => hu d (List.mem_cons_of_mem _ hd))
    · have hc : c = (a, v) := ((List.mem_cons.mp hm).resolve_right hr).symm
      have hlast : ∀ d ∈ r, d.1 ≠ a := fun d hd e => hr (by
        have hv := hu d (List.mem_cons_of_mem _ hd) e
        rwa [← e, ← hv])
      show get 0 (writeCells (put 0 m c.1 c.2) r) a = v
      rw [get_writeCells_other _ _ _ hlast, hc, get_put_same]

/-- Cells that are those of a byte string, in whatever order, write it. -/
theorem get_writeCells_bytes {m cs : List Host.Cell} {pa : Nat} {b : List Byte} (h : ∀ c, c ∈ cs ↔ c ∈ cellsOf pa b) (a : Nat) :
    get 0 (writeCells m cs) a = if pa ≤ a ∧ a < pa + b.length then b.getD (a - pa) 0 else get 0 m a := by
  simp only [mem_cellsOf] at h
  split
  next ha =>
    refine get_writeCells_of_mem ((h _).mpr ⟨ha.1, ha.2, rfl⟩) (fun c hc e => ?_)
    rw [← e]
    exact ((h c).mp hc).2.2
  next ha =>
    refine get_writeCells_other _ _ _ (fun c hc e => ha ?_)
    obtain ⟨hlo, hhi, _⟩ := (h c).mp hc
    rw [← e]
    exact ⟨hlo, hhi⟩

theorem getD_leBytes (n v i : Nat) (h : i < n) : (leBytes n v).getD i 0 = BitVec.ofNat 8 (v / 256 ^ i) := by
  induction n generalizing v i with
  | zero => omega
  | succ n ih =>
    cases i with
    | zero => simp [leBytes]
    | succ i =>
      rw [leBytes, List.getD_cons_succ, ih _ _ (by omega), Nat.div_div_eq_div_mul, Nat.pow_succ']

theorem leBytes_length (n v : Nat) : (leBytes n v).length = n := by
  induction n generalizing v with
  | zero => rfl
  | succ n ih => simp [leBytes, ih]

/-- A byte of a number depends on the number modulo 2^(8 n) alone. -/
theorem leBytes_mod (n v : Nat) : leBytes n (v % 2 ^ (8 * n)) = leBytes n v := by
  induction n generalizing v with
  | zero => rfl
  | succ n ih =>
    have hb : v % 2 ^ (8 * (n + 1)) % 256 = v % 256 := by
      rw [show (256 : Nat) = 2 ^ 8 from rfl]
      exact Nat.mod_mod_of_dvd _ (Nat.pow_dvd_pow 2 (by omega))
    have hq : v % 2 ^ (8 * (n + 1)) / 256 = v / 256 % 2 ^ (8 * n) := by
      rw [show 2 ^ (8 * (n + 1)) = 256 * 2 ^ (8 * n) by rw [Nat.mul_add, Nat.pow_add]; omega, Nat.mod_mul_right_div_self]
    rw [leBytes, leBytes, hq, ih]
    congr 1
    exact BitVec.eq_of_toNat_eq (by simpa using hb)

/-! ### Writes to plain lines -/

/-- Cells whose lines lie in HBM4E, hold no error, and have no future request held at their slices. -/
def PlainCells (s : State) (cs : List Host.Cell) : Prop :=
  ∀ c ∈ cs, placeOf s c.1 = .hbm ∧ s.badLines.contains (c.1 / 64) = false ∧ (s.slice (homeSlice c.1)).held = []

theorem plainCells_of_plainTarget {s : State} {pa : Nat} {b : List Byte} (h : plainTarget s (span pa b.length)) :
    PlainCells s (cellsOf pa b) := fun c hc => by
  obtain ⟨hlo, hhi, _⟩ := (mem_cellsOf pa b c).mp hc
  exact h.1 c.1 (List.mem_map.mpr ⟨c.1 - pa, List.mem_range.mpr (by omega), by omega⟩)

/-- A write that touches no line in error reports nothing, and mends nothing. -/
theorem applyCells_goodLines {s : State} {core t : Nat} {cs : List Host.Cell} {mend : Bool}
    (h : ∀ c ∈ cs, s.badLines.contains (c.1 / 64) = false) :
    applyCells s core t cs mend = { s with mem := writeCells s.mem cs } := by
  have hl : ∀ l ∈ s.badLines, (dedup (cs.map (fun c => c.1 / 64))).contains l = false := by
    intro l hl
    rw [← Bool.not_eq_true, List.contains_iff_mem, mem_dedup, List.mem_map]
    rintro ⟨c, hc, rfl⟩
    have := h c hc
    simp [hl] at this
  have hpartly : s.badLines.filter (fun l => (dedup (cs.map (fun c => c.1 / 64))).contains l &&
      !((dedup (cs.map (fun c => c.1 / 64))).contains l && mend && coversLine cs l)) = [] :=
    List.filter_eq_nil_iff.mpr (fun l hlb => by simp only [hl l hlb]; simp)
  have hkept : s.badLines.filter (fun l => !((dedup (cs.map (fun c => c.1 / 64))).contains l && mend && coversLine cs l)) = s.badLines :=
    List.filter_eq_self.mpr (fun l hlb => by simp only [hl l hlb]; simp)
  simp only [applyCells, hpartly, List.foldl_nil, hkept]

theorem wakeHeld_noneHeld {s : State} {cs : List Host.Cell} (h : ∀ c ∈ cs, (s.slice (homeSlice c.1)).held = []) : wakeHeld s cs = s := by
  have hnone : filledBy s cs = [] := by
    simp only [filledBy, List.flatMap_eq_nil_iff, mem_dedup, List.mem_map]
    rintro _ ⟨c, hc, rfl⟩
    rw [h c hc]
    rfl
  rw [wakeHeld, hnone]
  rfl

theorem targetWrite_plain {s : State} {core t : Nat} {cs : List Host.Cell} {mend : Bool} (h : PlainCells s cs) :
    targetWrite s core t cs mend = { s with mem := writeCells s.mem cs } := by
  cases cs with
  | nil => rfl
  | cons c r =>
    have hplace : placeOf s c.1 = .hbm := (h c (by simp)).1
    simp only [targetWrite, applyCells_goodLines (fun d hd => (h d hd).2.1)]
    rw [show placeOf { s with mem := writeCells s.mem (c :: r) } c.1 = .hbm from hplace]
    exact wakeHeld_noneHeld (fun d hd => (h d hd).2.2)

theorem foldl_targetWrite_plain {s : State} {core t : Nat} {mend : Bool} (css : List (List Host.Cell))
    (h : PlainCells s css.flatten) :
    css.foldl (fun s cs => targetWrite s core t cs mend) s = { s with mem := writeCells s.mem css.flatten } := by
  induction css generalizing s with
  | nil => rfl
  | cons cs r ih =>
    have hcs : PlainCells s cs := fun c hc => h c (by simp [hc])
    have hr : PlainCells { s with mem := writeCells s.mem cs } r.flatten := fun c hc =>
      h c (by rw [List.flatten_cons]; exact List.mem_append_right _ hc)
    rw [List.foldl_cons, targetWrite_plain hcs, ih hr]
    simp [writeCells]

/-- A byte string written to a plain target, one request for each line. -/
theorem writes_byLine_plain {s : State} {core t pa : Nat} {b : List Byte} (h : plainTarget s (span pa b.length)) :
    ∃ m, (byLine (cellsOf pa b)).foldl (fun s cs => targetWrite s core t cs) s = { s with mem := m } ∧
      ∀ a, get 0 m a = if pa ≤ a ∧ a < pa + b.length then b.getD (a - pa) 0 else readByte s a := by
  have hmem := mem_flatten_byLine (cellsOf pa b)
  have hplain : PlainCells s (byLine (cellsOf pa b)).flatten := fun c hc => plainCells_of_plainTarget h c ((hmem c).mp hc)
  exact ⟨_, foldl_targetWrite_plain _ hplain, get_writeCells_bytes hmem⟩

/-- No line in error meets a plain target. -/
theorem badLines_plainTarget {s : State} {pa n : Nat} (hn : 0 < n) (h : plainTarget s (span pa n)) :
    ∀ l ∈ s.badLines, (decide (l * 64 < pa + n) && decide (pa < l * 64 + 64)) = false := by
  intro l hl
  rw [← Bool.not_eq_true, Bool.and_eq_true, decide_eq_true_eq, decide_eq_true_eq]
  rintro ⟨hhi, hlo⟩
  have hline : max pa (l * 64) / 64 = l := by omega
  have hgood := (h.1 (max pa (l * 64)) (List.mem_map.mpr ⟨max pa (l * 64) - pa, List.mem_range.mpr (by omega), by omega⟩)).2.1
  rw [hline] at hgood
  simp [hl] at hgood

theorem rangeBad_plainTarget {s : State} {pa n : Nat} (hn : 0 < n) (h : plainTarget s (span pa n)) : rangeBad s pa n = false := by
  rw [rangeBad, List.any_eq_false]
  exact fun l hl => by rw [badLines_plainTarget hn h l hl]; exact Bool.false_ne_true

end Sys2Proof.Machine
end

section
/-! Proofs of the family 00_scope: Anvil. -/

open Sys2Proof.Slice0

namespace Sys2Proof.Machine

/-! ### Reset and power loss (R461) -/

theorem lookup_filter_key {α : Type} (m : List (Nat × α)) (p : Nat → Bool) (k : Nat) :
    lookup (m.filter (fun c => p c.1)) k = if p k = true then lookup m k else none := by
  induction m with
  | nil => simp [lookup]
  | cons c r ih =>
    by_cases hc : p c.1 = true
    · rw [List.filter_cons, if_pos hc]
      simp only [lookup, ih]
      split
      next hk => rw [← hk, if_pos hc]
      · rfl
    · rw [List.filter_cons, if_neg hc, ih]
      split
      next hk =>
        have hne : c.1 ≠ k := fun e => hc (by rwa [e])
        simp only [lookup, if_neg hne]
      · rfl

/-- A reset, or a loss of power, leaves what lies outside the module (R461). -/
theorem afterReset_moduleFresh (s : State) (on : Bool) : AfterReset s (moduleFresh s on) on := by
  refine ⟨rfl, fun a => ?_⟩
  have hkeep := lookup_filter_key s.mem (fun k => decide (2 ^ 40 ≤ k)) a
  simp only [decide_eq_true_eq] at hkeep
  show get 0 (s.mem.filter (fun c => decide (2 ^ 40 ≤ c.1))) a = _
  rw [get, hkeep]
  split
  next h => rw [if_neg (Nat.not_lt.mpr h)]; rfl
  next h => rw [if_pos (Nat.lt_of_not_le h)]; rfl

/-! ### Bring-up (R461, R462) -/

theorem lookup_foldl_store {α : Type} (l : List Nat) (m : List (Nat × α)) (v : α) (k : Nat) :
    lookup (l.foldl (fun m j => store m j v) m) k = if k ∈ l then some v else lookup m k := by
  induction l generalizing m with
  | nil => rfl
  | cons j r ih =>
    rw [List.foldl_cons, ih]
    by_cases hk : k = j
    · subst hk; simp
    · simp [hk, lookup_store_other m v hk]

/-- The image of a KIND in the boot flash. -/
def flashImage (a : Anvil) (kind : Nat) : List Byte := (lookup a.flash kind).getD []

/-- Anvil once it has accepted the image of a KIND: it is measured, and the firmware cores that it serves are released (R462). -/
def imageAccepted (a : Anvil) (clk kind : Nat) : Anvil :=
  { a with
    measures := store a.measures kind (Config.shake256 (imageSigned (flashImage a kind))),
    versions := store a.versions kind (imageNum (flashImage a kind) 2 2),
    heard := (servedBy kind).foldl (fun h f => store h f clk) a.heard }

theorem verifyStep_refused {s : State} {kind : Nat} (h : imageFail s.anvil (flashImage s.anvil kind) kind ≠ 0) :
    verifyStep s kind = s.onAnvil (fun a => { a with fail := imageFail s.anvil (flashImage s.anvil kind) kind }) := by
  obtain ⟨k, hk⟩ := Nat.exists_eq_succ_of_ne_zero h
  rw [hk]
  rw [flashImage] at hk
  rw [verifyStep, hk]
  rfl

/-- An accepted image is measured, and then memory or links may fail to train. -/
theorem verifyStep_accepted {s : State} {kind : Nat} (h : imageFail s.anvil (flashImage s.anvil kind) kind = 0) :
    ∃ f link, verifyStep s kind =
        { s with draw := s.draw + 1, link := link, anvil := { imageAccepted s.anvil s.clk kind with fail := f } } ∧
      (f = s.anvil.fail ∨ (kind ≠ 1 ∧ f = 5)) := by
  rw [verifyStep]
  dsimp only [State.drawn]
  split
  next =>
    split
    next => exact ⟨s.anvil.fail, s.link, rfl, .inl rfl⟩
    next h1 =>
      split
      next => exact ⟨5, s.link, rfl, .inr ⟨fun e => h1 (beq_iff_eq.mpr e), rfl⟩⟩
      next =>
        split
        next => exact ⟨s.anvil.fail, _, rfl, .inl rfl⟩
        next => exact ⟨s.anvil.fail, s.link, rfl, .inl rfl⟩
  next h0 => exact absurd h h0

theorem lookup_heard_imageAccepted {a : Anvil} {clk kind fw : Nat} (h : fw ∈ servedBy kind) :
    lookup (imageAccepted a clk kind).heard fw = some clk := by
  simp [imageAccepted, lookup_foldl_store, h]

/-- The firmware cores that an image serves, as R466 numbers them. -/
theorem servedBy_eq {kind : Nat} (h : kind ∈ [1, 2, 3]) : servedBy kind = if kind = 1 then [0, 1, 2, 3] else [kind + 2] := by
  simp only [List.mem_cons, List.not_mem_nil, or_false] at h
  rcases h with rfl | rfl | rfl <;> rfl

/-- Anvil has begun step n of bring-up. -/
def begun (s : State) (n : Nat) : State := { s with anvil := { s.anvil with step := n } }

/-- The module after step n of bring-up (R462). -/
def afterBringup (s : State) (n : Nat) : State :=
  match n with
  | 2 => verifyStep (begun s n) 1
  | 3 => verifyStep (begun s n) 2
  | 4 => verifyStep (begun s n) 3
  | 5 => (begun s n).onAnvil (fun a => { a with ready := true })
  | _ => begun s n

theorem afterBringup_other (s : State) {n : Nat} (h : n ∉ [2, 3, 4, 5]) : afterBringup s n = begun s n := by
  unfold afterBringup
  split
  case h_5 => rfl
  all_goals exact absurd h (by decide)

theorem afterBringup_image (s : State) {kind : Nat} (h : kind ∈ [1, 2, 3]) :
    afterBringup s (kind + 1) = verifyStep (begun s (kind + 1)) kind := by
  simp only [List.mem_cons, List.not_mem_nil, or_false] at h
  rcases h with rfl | rfl | rfl <;> rfl

section
variable {s : State} (hp : s.powered = true) (hf : s.anvil.fail = 0) (hr : s.anvil.ready = false)
include hp hf hr

/-- Bring-up that has not ended and has not failed begins its next step. -/
theorem exec_bringupStep_next : exec .bringupStep s = .next (afterBringup s (s.anvil.step + 1)) := by
  rw [exec_bringupStep, execBringupStep, hp, hf, hr]
  rfl

/-- An image that fails its verification stops bring-up with its code, and nothing else of the module differs. -/
theorem bringupStep_imageRefused {kind : Nat} (hk : kind ∈ [1, 2, 3]) (hs : s.anvil.step = kind)
    (hfail : imageFail s.anvil (flashImage s.anvil kind) kind ≠ 0) :
    exec .bringupStep s = .next { s with anvil :=
      { s.anvil with step := kind + 1, fail := imageFail s.anvil (flashImage s.anvil kind) kind } } := by
  rw [exec_bringupStep_next hp hf hr, hs, afterBringup_image s hk, verifyStep_refused (s := begun s (kind + 1)) hfail]
  rfl

/-- An image that passes its verification is measured; then memory or links may fail to train. -/
theorem bringupStep_imageAccepted {kind : Nat} (hk : kind ∈ [1, 2, 3]) (hs : s.anvil.step = kind)
    (hpass : imageFail s.anvil (flashImage s.anvil kind) kind = 0) :
    ∃ f link, exec .bringupStep s = .next { s with draw := s.draw + 1, link := link, anvil :=
        { imageAccepted s.anvil s.clk kind with step := kind + 1, fail := f } } ∧ (f = 0 ∨ (kind ≠ 1 ∧ f = 5)) := by
  obtain ⟨f, link, hv, hcode⟩ := verifyStep_accepted (s := begun s (kind + 1)) hpass
  rw [show (begun s (kind + 1)).anvil.fail = 0 from hf] at hcode
  exact ⟨f, link, by rw [exec_bringupStep_next hp hf hr, hs, afterBringup_image s hk, hv]; rfl, hcode⟩

theorem bringupStep_verifiesImage {kind : Nat} (hk : kind ∈ [1, 2, 3]) (hs : s.anvil.step = kind) :
    ∃ t, exec .bringupStep s = .next t ∧ t.mem = s.mem ∧ t.anvil.step = kind + 1 ∧ t.anvil.ready = false ∧
      (imageFail s.anvil (flashImage s.anvil kind) kind ≠ 0 → AnvilBecomes s t
        { s.anvil with step := kind + 1, fail := imageFail s.anvil (flashImage s.anvil kind) kind }) ∧
      (imageFail s.anvil (flashImage s.anvil kind) kind = 0 →
        lookup t.anvil.measures kind = some (Config.shake256 (imageSigned (flashImage s.anvil kind))) ∧
        lookup t.anvil.versions kind = some (imageNum (flashImage s.anvil kind) 2 2) ∧
        (∀ fw ∈ (if kind = 1 then [0, 1, 2, 3] else [kind + 2]), lookup t.anvil.heard fw = some s.clk) ∧
        (t.anvil.fail = 0 ∨ (kind ≠ 1 ∧ t.anvil.fail = 5))) := by
  by_cases h : imageFail s.anvil (flashImage s.anvil kind) kind = 0
  · obtain ⟨f, link, he, hcode⟩ := bringupStep_imageAccepted hp hf hr hk hs h
    refine ⟨_, he, rfl, rfl, hr, fun hne => absurd h hne,
      fun _ => ⟨lookup_store_same _ _ _, lookup_store_same _ _ _, fun fw hfw => ?_, hcode⟩⟩
    rw [← servedBy_eq hk] at hfw
    exact lookup_heard_imageAccepted hfw
  · exact ⟨_, bringupStep_imageRefused hp hf hr hk hs h, rfl, rfl, hr, fun _ => rfl, fun h0 => absurd h0 h⟩

end

/-! ### Reports (R465) -/

theorem exec_attest_idle {s : State} {v : Dword} (hop : v.toNat / 2 ^ 56 = 1) (hst : s.anvil.st ≠ 1) :
    exec (.attest v) s = .next { s with anvil :=
      if s.anvil.ready then { s.anvil with st := 1, dst := v.toNat / 64 % 2 ^ 46 * 64, asked := nonceWords s.anvil }
      else { s.anvil with st := 3 } } := by
  have h56 : dbits v 63 56 = 1 := by
    have := v.isLt
    simp only [dbits, BitVec.extractLsb'_toNat, Nat.shiftRight_eq_div_pow]
    omega
  have h6 : dbits v 51 6 = v.toNat / 64 % 2 ^ 46 := by
    simp only [dbits, BitVec.extractLsb'_toNat, Nat.shiftRight_eq_div_pow]
  rw [exec_attest, execAttest, writeAvcmd, h56, h6]
  cases h : s.anvil.ready <;> simp [hst, h, State.onAnvil]

/-- A report is 5,565 bytes long, with its signature (R465). -/
theorem length_report {a : Anvil} (h : a.asked.length = 4) :
    (reportHead a ++ (List.range 3309).map (Config.reportSig (identitySeed a) (reportHead a))).length = 5565 := by
  simp only [reportHead, measureBytes, hashBytes, List.length_append, List.length_map, List.length_range, leBytes_length,
    List.length_flatMap, List.map_const', List.sum_replicate_nat, h]
  rfl

theorem getD_padTo (n i : Nat) (b : List Byte) : (padTo n b).getD i 0 = b.getD i 0 := by
  rw [padTo, List.getD_eq_getElem?_getD, List.getD_eq_getElem?_getD]
  rcases Nat.lt_or_ge i b.length with h | h
  · rw [List.getElem?_append_left h]
  · rw [List.getElem?_append_right h, List.getElem?_eq_none h, List.getElem?_replicate]
    split <;> rfl

theorem length_padTo {n : Nat} {b : List Byte} (h : b.length ≤ n) : (padTo n b).length = n := by
  rw [padTo, List.length_append, List.length_replicate, Nat.add_sub_cancel' h]

/-- A write of Anvil to host memory that meets no line in error. -/
theorem busWrite_goodLines {s : State} {a : Nat} {b : List Byte}
    (h : ∀ k ∈ span (busPa a) b.length, s.badLines.contains (k / 64) = false) :
    busWrite s a b = { s with
      mem := writeCells s.mem (cellsOf (busPa a) b), sysOut := s.sysOut ++ [⟨0, a, b.length, cellsOf (busPa a) b⟩] } := by
  have hgood : ∀ c ∈ cellsOf (busPa a) b, s.badLines.contains (c.1 / 64) = false := fun c hc => by
    obtain ⟨hlo, hhi⟩ := cellsOf_fst _ _ c hc
    exact h c.1 (List.mem_map.mpr ⟨c.1 - busPa a, List.mem_range.mpr (by omega), by omega⟩)
  rw [busWrite, applyCells_goodLines hgood]

/-- The bytes of the report in progress, with its signature (R465). -/
def report (a : Anvil) : List Byte := reportHead a ++ (List.range 3309).map (Config.reportSig (identitySeed a) (reportHead a))

theorem exec_attestComplete_writes {s : State} (hst : s.anvil.st = 1) (hd : ∀ d ∈ s.dies, d.2.inReset = false) :
    exec .attestComplete s =
      .next ((busWrite s s.anvil.dst (padTo 8192 (report s.anvil))).onAnvil (fun a => { a with st := 2 })) := by
  have hdies : s.dies.any (·.2.inReset) = false := List.any_eq_false.mpr (fun d hd' => by rw [hd d hd']; exact Bool.false_ne_true)
  rw [exec_attestComplete, execAttestComplete]
  dsimp only
  rw [hst, hdies]
  rfl

theorem attestComplete_report {s : State} (hst : s.anvil.st = 1) (hasked : s.anvil.asked.length = 4)
    (hd : ∀ d ∈ s.dies, d.2.inReset = false)
    (hgood : ∀ a ∈ span (busPa s.anvil.dst) 8192, s.badLines.contains (a / 64) = false) :
    ∃ t, exec .attestComplete s = .next t ∧ t.anvil = { s.anvil with st := 2 } ∧
      ∀ a, readByte t a = if busPa s.anvil.dst ≤ a ∧ a < busPa s.anvil.dst + 8192
        then (report s.anvil).getD (a - busPa s.anvil.dst) 0 else readByte s a := by
  have hlen : (padTo 8192 (report s.anvil)).length = 8192 := length_padTo (by rw [report, length_report hasked]; decide)
  rw [exec_attestComplete_writes hst hd, busWrite_goodLines (by rwa [hlen])]
  refine ⟨_, rfl, rfl, fun a => ?_⟩
  have hbytes := get_writeCells_bytes (m := s.mem) (fun c => Iff.rfl (a := c ∈ cellsOf (busPa s.anvil.dst) (padTo 8192 (report s.anvil)))) a
  rw [hlen, getD_padTo] at hbytes
  exact hbytes

/-! ### Clock and power (R463, R469) -/

theorem exec_clockThrottle_next (up : Bool) (s : State) : exec (.clockThrottle up) s = .next { s with anvil :=
    { s.anvil with mhzDrop := if up then s.anvil.mhzDrop - 1 else min 8 (s.anvil.mhzDrop + 1) } } := rfl

theorem exec_powerMeasurement_due {s : State} (w : Word) (h0 : s.clk ≠ 0) (h : s.clk % Config.msClk = 0) :
    exec (.powerMeasurement w) s = .next { s with anvil := { s.anvil with pwr := w } } := by
  rw [exec_powerMeasurement, execPowerMeasurement, h, beq_false_of_ne h0]
  rfl

/-- Settles O49: each event of Anvil by the lemma about its one step; the report by what a write to good lines leaves. -/
theorem anvilBringsUpAndReports : Obligations.AnvilBringsUpAndReports := by
  refine ⟨fun s => ⟨⟨_, rfl, afterReset_moduleFresh s true⟩, _, rfl, afterReset_moduleFresh s false⟩,
    fun s kind f b hp hf hr => ⟨fun h => ?other, fun h => ?last, ?image⟩,
    fun s v hop hst => ⟨fun hr => ?refused, fun hr => ?asked⟩,
    fun s hst hasked hd hgood => attestComplete_report hst hasked hd hgood,
    fun s => ⟨⟨_, exec_clockThrottle_next true s, rfl⟩, fun h => ?slower⟩,
    fun s w h0 h => ⟨_, exec_powerMeasurement_due w h0 h, rfl⟩⟩
  case other =>
    have he := exec_bringupStep_next hp hf hr
    rw [afterBringup_other s h] at he
    exact ⟨_, he, rfl⟩
  case last =>
    have he := exec_bringupStep_next hp hf hr
    rw [h] at he
    exact ⟨_, he, rfl⟩
  case image =>
    rintro hk hs rfl rfl
    exact bringupStep_verifiesImage hp hf hr hk hs
  case refused => exact ⟨_, exec_attest_idle hop hst, by rw [AnvilBecomes, hr]; rfl⟩
  case asked => exact ⟨_, exec_attest_idle hop hst, by rw [AnvilBecomes, hr]; rfl⟩
  case slower =>
    have hmin : min 8 (s.anvil.mhzDrop + 1) = s.anvil.mhzDrop + 1 := by omega
    exact ⟨_, exec_clockThrottle_next false s, by rw [AnvilBecomes, hmin]; rfl⟩

end Sys2Proof.Machine
end

section
/-! Proofs of the family 00_scope: the registers of the links and of tenants, as the host writes and reads them. -/

open Sys2Proof.Slice0

namespace Sys2Proof.Machine

/-! ### Link registers (R451, R452) -/

theorem dbits_eq {n : Nat} (d : BitVec n) (hi lo : Nat) : dbits d hi lo = d.toNat / 2 ^ lo % 2 ^ (hi + 1 - lo) := by
  rw [dbits, BitVec.extractLsb'_toNat, Nat.shiftRight_eq_div_pow]

theorem exec_pkgctlWrite_next (s : State) (v : Dword) : exec (.pkgctlWrite v) s = .next { s with link := { s.link with
    len := v.getLsbD 63, hbap := v.toNat / 2 ^ 10 % 16, pkgid := if s.link.len then s.link.pkgid else v.toNat % 1024 } } := by
  have hhbap : dbits v 13 10 = v.toNat / 2 ^ 10 % 16 := dbits_eq v 13 10
  have hpkgid : dbits v 9 0 = v.toNat % 1024 := (dbits_eq v 9 0).trans (congrArg (· % 1024) (Nat.div_one v.toNat))
  rw [← hhbap, ← hpkgid]
  exact exec_pkgctlWrite s v

/-- A change of one tenant. -/
theorem tenantBecomes_onTenant (s : State) (t : Nat) (f : Tenant → Tenant) : TenantBecomes s (s.onTenant t f) t (f (s.tenant t)) :=
  ⟨rfl, State.onTenant_same s t f, fun _ hk => State.onTenant_other s t f hk⟩

theorem exec_tlbindWrite_free {s : State} {t : Nat} {v : Dword} (h32 : v.toNat % 64 ≤ 32)
    (hfree : v.toNat % 64 ≠ 0 → ∀ p ∈ s.tenants, p.1 ≠ t → p.2.vf ≠ v.toNat % 64) :
    exec (.tlbindWrite t v) s = .next (s.onTenant t (fun T => { T with vf := v.toNat % 64 })) := by
  have hvf : dbits v 5 0 = v.toNat % 64 := (dbits_eq v 5 0).trans (congrArg (· % 64) (Nat.div_one v.toNat))
  have htaken : ¬ (32 < v.toNat % 64 ∨ (v.toNat % 64 ≠ 0 ∧ ∃ p ∈ s.tenants, p.1 ≠ t ∧ p.2.vf = v.toNat % 64)) := by
    rintro (h | ⟨h0, p, hp, hpt, hv⟩)
    · omega
    · exact hfree h0 p hp hpt hv
  rw [exec_tlbindWrite, execTlbindWrite, writeTlbind, hvf, if_neg (by simpa using htaken)]

/-! ### Plain registers of a tenant (R24, R423, R439) -/

/-- The translation block of tenant t in the physical function. -/
theorem blockAt_tx (s : State) {t o : Nat} (ht : t < 32) (ho : o < 4096) :
    blockAt s 0 (0x01000000 + o + 4096 * t) = some (.tx t true, o) := by
  simp only [blockAt, beq_self_eq_true, if_true, Bool.and_eq_true, decide_eq_true_eq]
  rw [if_pos (by omega), show (0x01000000 + o + 4096 * t - 0x01000000) / 4096 = t by omega,
    show (0x01000000 + o + 4096 * t) % 4096 = o by omega]

/-- Its trap block. -/
theorem blockAt_trap (s : State) {t o : Nat} (ht : t < 32) (ho : o < 4096) :
    blockAt s 0 (0x03000000 + o + 4096 * t) = some (.trap t, o) := by
  simp only [blockAt, beq_self_eq_true, if_true, Bool.and_eq_true, decide_eq_true_eq]
  rw [if_neg (by omega), if_neg (by omega), if_neg (by omega), if_pos (by omega),
    show (0x03000000 + o + 4096 * t - 0x03000000) / 4096 = t by omega, show (0x03000000 + o + 4096 * t) % 4096 = o by omega]

/-- Its debug block. -/
theorem blockAt_debug (s : State) {t o : Nat} (ht : t < 32) (ho : o < 4096) :
    blockAt s 0 (0x04000000 + o + 4096 * t) = some (.debug t true, o) := by
  simp only [blockAt, beq_self_eq_true, if_true, Bool.and_eq_true, decide_eq_true_eq]
  rw [if_neg (by omega), if_neg (by omega), if_neg (by omega), if_neg (by omega), if_pos (by omega),
    show (0x04000000 + o + 4096 * t - 0x04000000) / 4096 = t by omega, show (0x04000000 + o + 4096 * t) % 4096 = o by omega]

theorem setWidth_low (v : Dword) : (v &&& 0xFFFFFFFF).setWidth 32 = v.setWidth 32 ∧
    ((v &&& 0xFFFFFFFF).setWidth 32).setWidth 64 = v &&& 0xFFFFFFFF := by
  have hmod : (v &&& 0xFFFFFFFF).toNat = v.toNat % 2 ^ 32 := Nat.and_two_pow_sub_one_eq_mod v.toNat 32
  constructor <;> refine BitVec.eq_of_toNat_eq ?_ <;> simp only [BitVec.toNat_setWidth, hmod] <;> omega

/-- A plain register stands in its tenant's block, takes the bits that it has, and reads as they are. -/
theorem plainRegs_blocks (s : State) (v : Dword) {t : Nat} (ht : t < 32) : ∀ p ∈ plainRegs,
    (p.1 + 4096 * t) % 8 = 0 ∧
    ∃ b o, (∀ u, blockAt u 0 (p.1 + 4096 * t) = some (b, o)) ∧
      regWrite s b o v = s.onTenant t (p.2.2 (v &&& p.2.1)) ∧
      ∀ u T, u.tenant t = p.2.2 (v &&& p.2.1) T → regValue u b o = v &&& p.2.1 := by
  obtain ⟨hlow, hback⟩ := setWidth_low v
  have hall : v &&& 0xFFFFFFFFFFFFFFFF = v := BitVec.and_allOnes
  simp only [plainRegs, List.forall_mem_cons]
  exact ⟨⟨by omega, _, _, fun u => blockAt_tx u (o := 8) ht (by decide), rfl, fun _ _ h => congrArg Tenant.txroot h⟩,
    ⟨by omega, _, _, fun u => blockAt_tx u (o := 0x10) ht (by decide), rfl, fun _ _ h => congrArg Tenant.txfrb h⟩,
    ⟨by omega, _, _, fun u => blockAt_tx u (o := 0x38) ht (by decide), by rw [hlow]; rfl,
      fun _ _ h => (congrArg (fun T => T.txinvn.setWidth 64) h).trans hback⟩,
    ⟨by omega, _, _, fun u => blockAt_trap u (o := 0) ht (by decide), rfl, fun _ _ h => congrArg Tenant.thbase h⟩,
    ⟨by omega, _, _, fun u => blockAt_trap u (o := 8) ht (by decide), rfl, fun _ _ h => congrArg Tenant.thctl h⟩,
    ⟨by omega, _, _, fun u => blockAt_debug u (o := 8) ht (by decide), by rw [hall]; rfl, fun _ _ h => congrArg Tenant.dbgdata h⟩,
    ⟨by omega, _, _, fun u => blockAt_debug u (o := 0x80) ht (by decide), rfl, fun _ _ h => congrArg Tenant.trbase h⟩,
    ⟨by omega, _, _, fun u => blockAt_debug u (o := 0x98) ht (by decide), by rw [hlow]; rfl,
      fun _ _ h => (congrArg (fun T => T.trt.setWidth 64) h).trans hback⟩, List.forall_mem_nil _⟩

/-- A host's write of 8 bytes, aligned, writes the register at its offset (R502). -/
theorem hostWrite_eight {s : State} {fn off o : Nat} {b : Block} (v : Dword) (h : off % 8 = 0)
    (hb : blockAt s fn off = some (b, o)) : hostWrite s fn off 8 v = regWrite s b o v := by
  have hoff : off / 8 * 8 = off := by omega
  simp only [hostWrite, hostAccess, h, hoff, hb]
  rfl

theorem registerWrite_plain (s : State) (v : Dword) {t : Nat} (ht : t < 32) (p) (hp : p ∈ plainRegs) :
    ∃ u, exec (.registerWrite 0 (p.1 + 4096 * t) 8 v) s = .next u ∧ TenantBecomes s u t (p.2.2 (v &&& p.2.1) (s.tenant t)) ∧
      hostRead u 0 (p.1 + 4096 * t) 8 = v &&& p.2.1 := by
  obtain ⟨h8, b, o, hblock, hwrite, hread⟩ := plainRegs_blocks s v ht p hp
  have htenant := tenantBecomes_onTenant s t (p.2.2 (v &&& p.2.1))
  refine ⟨_, by rw [exec_registerWrite, execRegisterWrite, hostWrite_eight v h8 (hblock s), hwrite], htenant, ?_⟩
  rw [hostRead_eight _ _ _ h8, hblock]
  exact hread _ _ htenant.2.1

/-- Which bits the masks of THBASE's halves and of its reserved bits hold. -/
theorem getLsbD_thbaseMasks : ∀ i < 64, (0xFFFFFFFF00000000 : Dword).getLsbD i = decide (32 ≤ i) ∧
    (0xFFFFFFFF : Dword).getLsbD i = decide (i < 32) ∧ (0x0FFFFFFFFFFFFFFC : Dword).getLsbD i = (decide (2 ≤ i) && decide (i < 60)) := by
  decide

/-- A write of the lower half of THBASE keeps its upper half (R502). -/
theorem thbase_lowerHalf (keep v : Dword) : ((keep &&& 0xFFFFFFFF00000000) ||| (v &&& 0xFFFFFFFF)) &&& 0x0FFFFFFFFFFFFFFC =
    BitVec.ofNat 64 ((keep.toNat / 2 ^ 32 % 2 ^ 28) * 2 ^ 32 + v.toNat % 2 ^ 32 / 4 * 4) := by
  refine BitVec.eq_of_getLsbD_eq (fun i hi => ?_)
  obtain ⟨hupper, hlower, hbits⟩ := getLsbD_thbaseMasks i hi
  have hlow : v.toNat % 2 ^ 32 / 4 * 4 < 2 ^ 32 := by omega
  have hsum : ((keep.toNat / 2 ^ 32 % 2 ^ 28) * 2 ^ 32 + v.toNat % 2 ^ 32 / 4 * 4).testBit i =
      if i < 32 then (v.toNat % 2 ^ 32 / 2 ^ 2 * 2 ^ 2).testBit i else (keep.toNat / 2 ^ 32 % 2 ^ 28).testBit (i - 32) := by
    rw [Nat.mul_comm _ (2 ^ 32)]
    exact Nat.testBit_two_pow_mul_add _ hlow i
  simp only [BitVec.getLsbD_and, BitVec.getLsbD_or, BitVec.getLsbD_ofNat, hupper, hlower, hbits, hsum]
  split
  next h =>
    rw [Nat.testBit_mul_two_pow, Nat.testBit_div_two_pow, Nat.testBit_mod_two_pow]
    by_cases h2 : 2 ≤ i
    · have hback : i - 2 + 2 = i := Nat.sub_add_cancel h2
      simp [h, h2, hback, hi, show i < 60 by omega, show ¬ 32 ≤ i by omega, BitVec.getLsbD]
    · simp [h2]
  next h =>
    have h32 : 32 ≤ i := Nat.le_of_not_lt h
    rw [Nat.testBit_mod_two_pow, Nat.testBit_div_two_pow, Nat.sub_add_cancel h32]
    have h60 : (i - 32 < 28) = (i < 60) := by rw [eq_iff_iff]; omega
    simp [h, h32, hi, h60, show 2 ≤ i by omega, BitVec.getLsbD, Bool.and_comm]
theorem registerWrite_thbaseLow (s : State) (v : Dword) {t : Nat} (ht : t < 32) :
    ∃ u, exec (.registerWrite 0 (0x03000000 + 4096 * t) 4 v) s = .next u ∧ TenantBecomes s u t { s.tenant t with
      thbase := BitVec.ofNat 64 (((s.tenant t).thbase.toNat / 2 ^ 32 % 2 ^ 28) * 2 ^ 32 + v.toNat % 2 ^ 32 / 4 * 4) } := by
  have hoff : (0x03000000 + 4096 * t) / 8 * 8 = 0x03000000 + 4096 * t := by omega
  have h4 : (0x03000000 + 4096 * t) % 4 = 0 := by omega
  have h8 : (0x03000000 + 4096 * t) % 8 = 0 := by omega
  have hw : exec (.registerWrite 0 (0x03000000 + 4096 * t) 4 v) s = .next (s.onTenant t (fun T => { T with
      thbase := (((s.tenant t).thbase &&& 0xFFFFFFFF00000000) ||| (v &&& 0xFFFFFFFF)) &&& 0x0FFFFFFFFFFFFFFC })) := by
    rw [exec_registerWrite, execRegisterWrite, hostWrite]
    simp only [hostAccess, h4, h8, hoff, blockAt_trap s (o := 0) ht (by decide)]
    rfl
  rw [← thbase_lowerHalf]
  exact ⟨_, hw, tenantBecomes_onTenant s t _⟩

end Sys2Proof.Machine
end

section
/-! Proofs of the family 00_scope: the host's aperture, accesses of other packages, and the ports. -/

open Sys2Proof.Slice0

namespace Sys2Proof.Machine

/-! ### The aperture (R450) -/

theorem exec_hostBar2_write {s : State} {off : Nat} {b : List Byte} (hfit : off + b.length ≤ 2 ^ 36)
    (hready : homeReady s (s.link.hbap * 2 ^ 36 + off) = true) :
    exec (.hostBar2Access off b.length (some b)) s =
      .next ((byLine (cellsOf (s.link.hbap * 2 ^ 36 + off) b)).foldl (fun s cs => targetWrite s noCore 255 cs) s) := by
  rw [exec_hostBar2Access, execHostBar2Access]
  simp only [hready, Nat.not_lt.mpr hfit, decide_false]
  rfl

theorem exec_hostBar2_read {s : State} {off n : Nat} (hn : 0 < n) (hfit : off + n ≤ 2 ^ 36)
    (hready : homeReady s (s.link.hbap * 2 ^ 36 + off) = true) (hplain : plainTarget s (span (s.link.hbap * 2 ^ 36 + off) n)) :
    exec (.hostBar2Access off n none) s =
      .next { s with hostOut := s.hostOut ++ [some (readMem s (s.link.hbap * 2 ^ 36 + off) n)] } := by
  have hbad := List.filter_eq_nil_iff.mpr (fun l hl => Bool.eq_false_iff.mp (badLines_plainTarget hn hplain l hl))
  rw [exec_hostBar2Access, execHostBar2Access]
  simp only [hready, Nat.not_lt.mpr hfit, decide_false, hbad]
  rfl

/-! ### Atomics on bytes -/

/-- The signed value of w bits, as the spec's formulas and as the model reads them. -/
theorem sext_eq_bmod (x : Nat) {w : Nat} (h : 0 < w) : sext x w = Int.bmod x (2 ^ w) := by
  obtain ⟨k, rfl⟩ : ∃ k, w = k + 1 := ⟨w - 1, by omega⟩
  have hlt := Nat.mod_lt x (show 2 ^ (k + 1) > 0 from Nat.two_pow_pos _)
  have hcast : ((x : Int) % ((2 ^ (k + 1) : Nat) : Int)) = ((x % 2 ^ (k + 1) : Nat) : Int) := by norm_cast
  simp only [sext, Int.bmod_def, hcast, Nat.add_sub_cancel, bitOf, beq_iff_eq]
  generalize x % 2 ^ (k + 1) = y at hlt ⊢
  rw [Nat.pow_succ] at hlt ⊢
  generalize hP : 2 ^ k = P at hlt ⊢
  rcases Nat.lt_or_ge y P with hy | hy
  · rw [Nat.div_eq_of_lt hy, if_neg (by omega), if_pos (by omega)]
  · rw [show y / P = 1 from Nat.div_eq_of_lt_le (by omega) (by omega), if_pos rfl, if_neg (by omega)]

/-- What an atomic of R77 leaves: the statement's formula and the model's agree on the bits that are stored. -/
theorem atomicWord_mod {w : Nat} (hw : 0 < w) (old a b : Nat) :
    ∀ p ∈ atomForms, atomicWord p.1 w old a b % 2 ^ w = p.2 w old a b % 2 ^ w := by
  have hmax : (if sext old w ≤ sext a w then a else old) % 2 ^ w = (if Int.bmod old (2 ^ w) ≥ Int.bmod a (2 ^ w) then old else a) % 2 ^ w := by
    simp only [sext_eq_bmod _ hw, ge_iff_le]
    rcases Int.lt_trichotomy (Int.bmod old (2 ^ w)) (Int.bmod a (2 ^ w)) with h | h | h
    · rw [if_pos (Int.le_of_lt h), if_neg (Int.not_le.mpr h)]
    · rw [if_pos (Int.le_of_eq h), if_pos (Int.le_of_eq h.symm)]
      have hmod := congrArg (· % ((2 ^ w : Nat) : Int)) h
      simp only [Int.bmod_emod] at hmod
      exact_mod_cast hmod.symm
    · rw [if_neg (Int.not_le.mpr h), if_pos (Int.le_of_lt h)]
  simp only [atomForms, List.forall_mem_cons]
  refine ⟨rfl, rfl, rfl, rfl, ?_, hmax, rfl, rfl, rfl, ?_, rfl, rfl, rfl, rfl, rfl, List.forall_mem_nil _⟩
  · simp only [atomicWord, sext_eq_bmod _ hw]
  · simp only [atomicWord, beq_iff_eq]

theorem get_writeCells_leBytes (m : List Host.Cell) (pa n v a : Nat) :
    get 0 (writeCells m (cellsOf pa (leBytes n v))) a = storedByte pa n v a (get 0 m a) := by
  rw [get_writeCells_bytes (fun c => Iff.rfl), leBytes_length, storedByte]
  split
  next h => exact getD_leBytes n v _ (by omega)
  · rfl

/-! ### Accesses of other packages (R456, R457) -/

/-- An access that is no record, to a member of the domain, is performed or refused. -/
theorem exec_remoteAccess_member {s : State} {a : RemoteAccess} (hlen : s.link.len = true) (hid : s.link.pkgid ≠ 1023)
    (hkind : ∀ h handle payload, a.kind ≠ .record h handle payload) (hready : homeReady s a.off.toNat = true) :
    exec (.remoteAccessArrival a) s =
      .next (if admitted s.link a.key.toNat a.off.toNat (remoteSpan a.kind).1 (remoteSpan a.kind).2 then performRemote s a
             else replyTo s a.pkg 1 []) := by
  have hmember : isMember s = true := by simp [isMember, hlen, hid]
  rw [exec_remoteAccessArrival, execRemoteAccessArrival, hmember]
  simp only [hready]
  cases hk : a.kind with
  | record h handle payload => exact absurd hk (hkind h handle payload)
  | _ => rfl

section
variable {s : State} {a : RemoteAccess} {n : Nat} {wr : Bool}

theorem exec_remoteAccess_admitted (hspan : remoteSpan a.kind = (n, wr)) (hadm : Admitted s a n wr)
    (hkind : ∀ h handle payload, a.kind ≠ .record h handle payload) :
    exec (.remoteAccessArrival a) s = .next (performRemote s a) := by
  obtain ⟨hlen, hid, hin, hready⟩ := hadm
  rw [exec_remoteAccess_member hlen hid hkind hready, hspan, if_pos hin]

theorem exec_remoteAccess_refused (hspan : remoteSpan a.kind = (n, wr)) (hlen : s.link.len = true) (hid : s.link.pkgid ≠ 1023)
    (hout : admitted s.link a.key.toNat a.off.toNat n wr = false) (hready : homeReady s a.off.toNat = true)
    (hkind : ∀ h handle payload, a.kind ≠ .record h handle payload) :
    exec (.remoteAccessArrival a) s = .next (replyTo s a.pkg 1 []) := by
  rw [exec_remoteAccess_member hlen hid hkind hready, hspan, if_neg (by rw [hout]; exact Bool.false_ne_true)]

theorem remoteAccess_load (hk : a.kind = .load n) (hadm : Admitted s a n false) (hgood : rangeBad s a.off.toNat n = false) :
    exec (.remoteAccessArrival a) s = .next (replyTo s a.pkg 0 (readMem s a.off.toNat n)) := by
  rw [exec_remoteAccess_admitted (by rw [hk]; rfl) hadm (by simp [hk]), performRemote, hk]
  simp only [hgood]
  rfl

theorem remoteAccess_store {b : List Byte} (hk : a.kind = .store b) (hadm : Admitted s a b.length true)
    (hplain : plainTarget s (span a.off.toNat b.length)) :
    ∃ u, exec (.remoteAccessArrival a) s = .next u ∧ u = { s with mem := u.mem, badLines := u.badLines, link := u.link } ∧
      Replied s u a.pkg 0 [] ∧
      ∀ j, readByte u j = if a.off.toNat ≤ j ∧ j < a.off.toNat + b.length then b.getD (j - a.off.toNat) 0 else readByte s j := by
  obtain ⟨m, hm, hbytes⟩ := writes_byLine_plain (core := noCore) (t := 255) hplain
  rw [exec_remoteAccess_admitted (by rw [hk]; rfl) hadm (by simp [hk]), performRemote, hk]
  dsimp only
  rw [hm]
  exact ⟨_, rfl, rfl, rfl, hbytes⟩

theorem remoteAccess_atomic {code : BitVec 4} {w64 : Bool} {x y : Dword} {old : Nat} (hk : a.kind = .atomic code w64 x y)
    (hn : n = if w64 then 8 else 4) (hadm : Admitted s a n true) (hplain : plainTarget s (span a.off.toNat n))
    (hold : old = leNat (readMem s a.off.toNat n)) (p) (hp : p ∈ atomForms) (hcode : code.toNat = p.1) :
    ∃ u, exec (.remoteAccessArrival a) s = .next u ∧ Replied s u a.pkg 0 (leBytes n old) ∧
      ∀ j, readByte u j = storedByte a.off.toNat n (p.2 (8 * n) old x.toNat y.toNat) j (readByte s j) := by
  have hpos : 0 < n := by rw [hn]; split <;> decide
  have hwidth : (if w64 then 64 else 32) = 8 * n := by rw [hn]; cases w64 <;> rfl
  have hbytes : leBytes n (atomicWord p.1 (8 * n) old x.toNat y.toNat) = leBytes n (p.2 (8 * n) old x.toNat y.toNat) := by
    rw [← leBytes_mod, atomicWord_mod (by omega) _ _ _ p hp, leBytes_mod]
  have hspan : remoteSpan a.kind = (n, true) := by rw [hk, hn]; rfl
  have hcells : PlainCells s (cellsOf a.off.toNat (leBytes n (p.2 (8 * n) old x.toNat y.toNat))) :=
    plainCells_of_plainTarget (by rwa [leBytes_length])
  have hperform : performRemote s a = replyTo
      { s with mem := writeCells s.mem (cellsOf a.off.toNat (leBytes n (p.2 (8 * n) old x.toNat y.toNat))) } a.pkg 0 (leBytes n old) := by
    rw [performRemote, hspan, hk]
    dsimp only
    rw [rangeBad_plainTarget hpos hplain, ← hold, hcode, hwidth, hbytes, targetWrite_plain hcells]
    rfl
  refine ⟨_, (exec_remoteAccess_admitted hspan hadm (by simp [hk])).trans (congrArg _ hperform), rfl, fun j => ?_⟩
  exact get_writeCells_leBytes s.mem _ _ _ j

end

/-! ### Ports (R458, R466) -/

theorem getLsbD_port {port : Nat} (h : port < 36) (j : Nat) : (BitVec.ofNat 36 (2 ^ port)).getLsbD j = decide (j = port) := by
  rw [BitVec.getLsbD_ofNat, Nat.testBit_two_pow]
  by_cases hj : j = port
  · simp [hj, h]
  · simp [hj, Ne.symm hj]

theorem getLsbD_clearPort (up : BitVec 36) {port : Nat} (h : port < 36) (j : Nat) :
    (up &&& ~~~(BitVec.ofNat 36 (2 ^ port))).getLsbD j = (up.getLsbD j && decide (j ≠ port)) := by
  rw [BitVec.getLsbD_and, BitVec.getLsbD_not, getLsbD_port h]
  by_cases hj : j < 36
  · simp [hj]
  · rw [BitVec.getLsbD_of_ge up j (Nat.le_of_not_lt hj)]; rfl

theorem getLsbD_setPort (up : BitVec 36) {port : Nat} (h : port < 36) (j : Nat) :
    (up ||| BitVec.ofNat 36 (2 ^ port)).getLsbD j = (up.getLsbD j || decide (j = port)) := by
  rw [BitVec.getLsbD_or, getLsbD_port h]

theorem exec_linkRetrain_trained {s : State} {port : Nat} (hup : s.link.portup.getLsbD port = true)
    (hno : ∀ p ∈ s.link.retrain, p.1 ≠ port) :
    exec (.linkRetrain port) s = .next { s with link := { s.link with
      portup := s.link.portup &&& ~~~(BitVec.ofNat 36 (2 ^ port)), retrain := s.link.retrain ++ [(port, s.clk)] } } := by
  have hany : s.link.retrain.any (·.1 == port) = false :=
    List.any_eq_false.mpr (fun p hp => by simpa using hno p hp)
  rw [exec_linkRetrain, execLinkRetrain, hup, hany]
  rfl

theorem exec_linkRetrainEnd_retrained {s : State} {port : Nat} (h : ∃ p ∈ s.link.retrain, p.1 = port) :
    exec (.linkRetrainEnd port) s = .next { s with link := { s.link with
      portup := s.link.portup ||| BitVec.ofNat 36 (2 ^ port), retrain := s.link.retrain.filter (·.1 != port) } } := by
  have hany : s.link.retrain.any (·.1 == port) = true := by simpa using h
  rw [exec_linkRetrainEnd, execLinkRetrainEnd, hany]
  rfl

/-- Settles O47: the registers by the lemmas about a host's write and read of one register, the aperture and the accesses of other
packages by what a write to a plain target leaves, the ports by the bits that each event clears or sets. -/
theorem linkAndHostAccessesTakeEffect : Obligations.LinkAndHostAccessesTakeEffect := by
  refine ⟨fun s v => ⟨_, exec_pkgctlWrite_next s v, rfl, rfl⟩,
    fun s t v h32 hfree => ⟨_, exec_tlbindWrite_free h32 hfree, tenantBecomes_onTenant s t _⟩,
    fun p hp s t v ht => registerWrite_plain s v ht p hp,
    fun s t v ht => registerWrite_thbaseLow s v ht,
    fun s off base b hne hfit hbase hready hplain => ?aperture,
    fun s a n hk hadm hgood => ⟨_, remoteAccess_load hk hadm hgood, rfl, rfl⟩,
    fun s a b hk hadm hplain => remoteAccess_store hk hadm hplain,
    fun p hp s a code w64 x y n old hk hcode hn hadm hplain hold => remoteAccess_atomic hk hn hadm hplain hold p hp hcode,
    fun s a b hk hlen hid hout hready =>
      ⟨_, exec_remoteAccess_refused (by rw [hk]; rfl) hlen hid hout hready (by simp [hk]), rfl, rfl⟩,
    fun s port hport => ⟨⟨_, rfl, rfl, getLsbD_clearPort _ hport, rfl⟩,
      fun hup hno => ⟨_, exec_linkRetrain_trained hup hno, rfl, getLsbD_clearPort _ hport, rfl⟩,
      fun hin => ⟨_, exec_linkRetrainEnd_retrained hin, rfl, getLsbD_setPort _ hport, rfl⟩⟩⟩
  case aperture =>
    subst hbase
    obtain ⟨m, hm, hbytes⟩ := writes_byLine_plain (core := noCore) (t := 255) hplain
    refine ⟨⟨_, (exec_hostBar2_write hfit hready).trans (congrArg _ hm), rfl, hbytes⟩, ?_⟩
    exact exec_hostBar2_read (List.length_pos_iff.mpr hne) hfit hready hplain

end Sys2Proof.Machine
end

section
/-! Proofs of the family 03_shared_memory: what a lane word leaves when it issues. -/

open Sys2Proof.Slice0

namespace Sys2Proof.Machine

/-! ### Local effects, one after another -/

section
variable {r t : State} {x : Ctx} {co : Cohort} {C : Core} {g : Group}

/-- A state that holds the cohort x differs from itself in nothing. -/
theorem onlyLocal_refl (h : ctxOf r x.c = some x) : OnlyLocal r r x x.co (r.core x.core) x.g :=
  ⟨lookup_of_ctx h, fun _ _ => rfl, rfl, fun _ _ => rfl, group_of_ctx h, fun _ _ => rfl, fun _ => rfl, rfl, fun _ => rfl⟩

/-- The cohort of a context is the one that was asked for. -/
theorem ctxOf_c {s : State} {c : Nat} {y : Ctx} (h : ctxOf s c = some y) : y.c = c := by
  unfold ctxOf at h
  split at h
  · cases h
  · obtain ⟨p, -, rfl⟩ := Option.map_eq_some_iff.mp h
    rfl

/-- The state that earlier accesses of x have left differs from itself in nothing. -/
theorem onlyLocal_became {y : Ctx} (h : Became r x y) : OnlyLocal r r x y.co (r.core x.core) x.g := by
  obtain ⟨hctx, hg, hco⟩ := h
  have hc := ctxOf_c hctx
  have hgrp : y.co.grp = x.co.grp := by rw [hco]
  rw [← hc] at hctx
  have hl := onlyLocal_refl hctx
  rwa [OnlyLocal, Ctx.core, hg, hgrp, hc] at hl

theorem OnlyLocal.onCohort (h : OnlyLocal r t x co C g) (f : Cohort → Cohort) : OnlyLocal r (t.onCohort x.c f) x (f co) C g := by
  obtain ⟨hco, hcos, hC, hCs, hg, hgs, hb, hf, ht⟩ := h
  refine ⟨by simp [hco], fun k hk => ?_, hC, hCs, hg, hgs, hb, ?_, ht⟩
  · rw [State.onCohort_other _ _ _ hk, hcos k hk]
  · rw [hf]; rfl

theorem OnlyLocal.onCore (h : OnlyLocal r t x co C g) (f : Core → Core) : OnlyLocal r (t.onCore x.core f) x co (f C) g := by
  obtain ⟨hco, hcos, hC, hCs, hg, hgs, hb, hf, ht⟩ := h
  refine ⟨hco, hcos, by simp [hC], fun k hk => ?_, hg, hgs, hb, ?_, ht⟩
  · rw [State.onCore_other _ _ _ hk, hCs k hk]
  · rw [hf]; rfl

theorem OnlyLocal.withFresh (h : OnlyLocal r t x co C g) (n : Nat) : OnlyLocal r { t with fresh := n } x co C g := by
  obtain ⟨hco, hcos, hC, hCs, hg, hgs, hb, hf, ht⟩ := h
  exact ⟨hco, hcos, hC, hCs, hg, hgs, hb, by rw [hf], ht⟩

theorem OnlyLocal.countEvent (h : OnlyLocal r t x co C g) (u code n : Nat) : OnlyLocal r (countEvent t u code n) x co C g := by
  obtain ⟨hco, hcos, hC, hCs, hg, hgs, hb, hf, ht⟩ := h
  have hcore : ∀ k, (Machine.countEvent t u code n).core k = t.core k := fun k => by rw [State.core, countEvent_cores]; rfl
  refine ⟨by rwa [countEvent_cohorts], fun k hk => ?_, by rwa [hcore], fun k hk => ?_, by rwa [countEvent_groups], fun k hk => ?_,
    fun a => ?_, ?_, fun k => ?_⟩
  · rw [countEvent_cohorts, hcos k hk]
  · rw [hcore, hCs k hk]
  · rw [countEvent_groups, hgs k hk]
  · rw [← hb a]; exact readByte_of_mem (countEvent_mem _ _ _ _) a
  · rw [countEvent_frame, hf]
  · rw [countEvent_tenant, ht k]

/-- What OnlyLocal leaves of the state outside cohorts, cores, groups, counters and identities. -/
theorem OnlyLocal.frame (h : OnlyLocal r t x co C g) :
    t = { r with cohorts := t.cohorts, cores := t.cores, groups := t.groups, tenants := t.tenants, fresh := t.fresh } := by
  obtain ⟨-, -, -, -, -, -, -, hf, -⟩ := h
  exact hf

theorem OnlyLocal.cohort (h : OnlyLocal r t x co C g) : lookup t.cohorts x.c = some co := h.1

theorem OnlyLocal.group (h : OnlyLocal r t x co C g) : lookup t.groups x.co.grp = some g := by
  obtain ⟨-, -, -, -, hg, -⟩ := h
  exact hg

theorem OnlyLocal.core (h : OnlyLocal r t x co C g) : t.core x.core = C := by
  obtain ⟨-, -, hC, -⟩ := h
  exact hC

theorem OnlyLocal.clk (h : OnlyLocal r t x co C g) : t.clk = r.clk := by rw [h.frame]
theorem OnlyLocal.pathOf (h : OnlyLocal r t x co C g) (pa : Nat) : pathOf t pa = pathOf r pa := by rw [h.frame]; rfl

/-! ### Parking and the end of a lane word (R46, R169, R179, R180) -/

/-- A cohort of a group that no save waits for stays parked. -/
theorem holdParked_notSaving {c : Nat} (h : ∀ y, ctxOf t c = some y → y.g.save = false) : holdParked t c = t := by
  unfold holdParked
  split
  · rfl
  next y hy =>
    rw [h y hy]
    rfl

/-- The group of the cohort x in a state that differs locally. -/
theorem OnlyLocal.group_of_ctx {y : Ctx} (h : OnlyLocal r t x co C g) (hgrp : co.grp = x.co.grp) (hy : ctxOf t x.c = some y) :
    y.g = g := by
  have hc := ctxOf_c hy
  rw [← hc] at hy
  have hyco := lookup_of_ctx hy
  have hyg := Machine.group_of_ctx hy
  rw [hc, h.cohort, Option.some.injEq] at hyco
  rw [← hyco, hgrp, h.group, Option.some.injEq] at hyg
  exact hyg.symm

/-- Parking frees the operand latch of the cohort (R46). -/
theorem OnlyLocal.parkCohort (h : OnlyLocal r t x co C g) (hgrp : co.grp = x.co.grp) (hsave : g.save = false) (p : Park) :
    OnlyLocal r (parkCohort t x p) x { co with park := some p, parkAt := r.clk } (latchFreed C x.c) g := by
  have hp := (h.onCore (fun C => latchFreed C x.c)).onCohort (fun co => { co with park := some p, parkAt := r.clk })
  rw [← h.clk] at hp ⊢
  rw [Machine.parkCohort, holdParked_notSaving (fun y hy => by rw [hp.group_of_ctx hgrp hy, hsave])]
  exact hp

/-- A core whose operand latch alone has changed. -/
def LatchOnly (C C' : Core) : Prop := C' = { C with latch := C'.latch }

theorem OnlyLocal.latchAfter (h : OnlyLocal r t x co C g) (op : Nat) (w : LaneWord) :
    ∃ C', OnlyLocal r (latchAfter t x op w) x co C' g ∧ LatchOnly C C' := by
  unfold Machine.latchAfter
  split
  · exact ⟨C, h, rfl⟩
  · exact ⟨_, h.onCore _, rfl⟩

/-- The late results of a lane word, which belong to its run (R179). -/
def lateWrites (op : Nat) (w : LaneWord) : List Nat := if laneLate op then laneWrites op w else []

/-- The cohort once its lane word has issued, before a switch bit parks it. -/
def wordIssued (co : Cohort) (op : Nat) (w : LaneWord) : Cohort :=
  { co.nextWord with waitL := 0, liftL := false,
                     runW := if w.sw then [] else if laneLate op then co.runW ++ laneWrites op w else co.runW }

theorem wordIssued_eq (co : Cohort) (op : Nat) (w : LaneWord) : wordIssued co op w = { co with
    laneQ := afterWord co.laneQ, waitL := 0, liftL := false, runW := if w.sw then [] else co.runW ++ lateWrites op w } := by
  have hq : co.nextWord = { co with laneQ := afterWord co.laneQ } := by
    unfold Cohort.nextWord
    split
    next hq => rw [hq, show afterWord [] = [] from rfl, ← hq]
    next b rest hq => rw [hq, show afterWord (b :: rest) =
      if b.next + 1 < b.words.length then { b with next := b.next + 1 } :: rest else rest from rfl]
  have hrun : co.runW ++ lateWrites op w = if laneLate op then co.runW ++ laneWrites op w else co.runW := by
    unfold lateWrites
    split
    · rfl
    · exact List.append_nil _
  rw [wordIssued, hq, hrun]

/-- A lane word whose cohort does not park has moved its cohort past it (R179, R180). -/
theorem laneMoved_wordIssued {base : Cohort} {w : LaneWord} (now op : Nat) (hpark : base.park = none)
    (hstay : ¬ (w.sw = true ∧ ∃ p ∈ base.pend, p.scalar = false)) :
    LaneMoved now base (wordIssued base op w) w (lateWrites op w) := by
  rw [LaneMoved, wordIssued_eq, if_neg hstay, if_neg hstay, ← hpark]

/-- One that closes a run whose results are outstanding has parked it. -/
theorem laneMoved_wordParked {base : Cohort} {w : LaneWord} (now op : Nat) (hpark : w.sw = true ∧ ∃ p ∈ base.pend, p.scalar = false) :
    LaneMoved now base { wordIssued base op w with park := some .results, parkAt := now } w (lateWrites op w) := by
  rw [LaneMoved, wordIssued_eq, if_pos hpark, if_pos hpark]

theorem parks_iff {base : Cohort} {op : Nat} {w : LaneWord} (hpark : base.park = none) :
    (w.sw && !(wordIssued base op w).lanesClear && (wordIssued base op w).park.isNone) = true ↔
      w.sw = true ∧ ∃ p ∈ base.pend, p.scalar = false := by
  rw [wordIssued_eq]
  simp [Cohort.lanesClear, hpark]

/-- The state after a lane word before its switch bit parks the cohort: the latch, the run and the counts. -/
def wordCounted (t : State) (x : Ctx) (blk : LaneBlock) (op : Nat) (w : LaneWord) (clks : Nat) : State :=
  countEvent (countEvent (countEvent ((latchAfter t x op w).onCohort x.c (fun co => wordIssued co op w)) x.t 3 1) x.t 4
    (maskLanes blk.mask).length) x.t 14 (clks - 1)

theorem finishWord_of_cohort {blk : LaneBlock} {op clks : Nat} {w : LaneWord}
    (h : lookup (wordCounted t x blk op w clks).cohorts x.c = some co) :
    finishWord t x blk op w clks = if (w.sw && !co.lanesClear && co.park.isNone) = true then
      parkCohort (wordCounted t x blk op w clks) x .results else wordCounted t x blk op w clks := by
  rw [show finishWord t x blk op w clks = (match lookup (wordCounted t x blk op w clks).cohorts x.c with
    | some co => if (w.sw && !co.lanesClear && co.park.isNone) = true then
        parkCohort (wordCounted t x blk op w clks) x .results else wordCounted t x blk op w clks
    | none => wordCounted t x blk op w clks) from rfl, h]

/-- What a lane word leaves once it has done its own work: its cohort is moved past it, and its core's operand latch is new. -/
theorem OnlyLocal.finishWord {base : Cohort} {op : Nat} {w : LaneWord} (h : OnlyLocal r t x base C g) (blk : LaneBlock) (clks : Nat)
    (hgrp : base.grp = x.co.grp) (hpark : base.park = none) (hsave : w.sw = true → g.save = false) :
    ∃ co C', OnlyLocal r (finishWord t x blk op w clks) x co C' g ∧ LatchOnly C C' ∧
      LaneMoved r.clk base co w (lateWrites op w) := by
  obtain ⟨C', hlatch, hC'⟩ := h.latchAfter op w
  have hdone : OnlyLocal r (wordCounted t x blk op w clks) x (wordIssued base op w) C' g :=
    (((hlatch.onCohort _).countEvent _ _ _).countEvent _ _ _).countEvent _ _ _
  rw [finishWord_of_cohort hdone.cohort]
  by_cases hp : w.sw = true ∧ ∃ p ∈ base.pend, p.scalar = false
  · rw [if_pos ((parks_iff hpark).mpr hp)]
    have hgrp' : (wordIssued base op w).grp = x.co.grp := by rw [wordIssued_eq]; exact hgrp
    have hlatchC : LatchOnly C (latchFreed C' x.c) := by rw [LatchOnly, hC']; rfl
    exact ⟨_, _, hdone.parkCohort hgrp' (hsave hp.1) .results, hlatchC, laneMoved_wordParked _ op hp⟩
  · rw [if_neg (fun e => hp ((parks_iff hpark).mp e))]
    exact ⟨_, _, hdone, hC', laneMoved_wordIssued _ op hpark hp⟩

end

/-! ### The issue of a lane word (R171, R278) -/

theorem issueL_ready {s : State} {k : LCtx} {op : Nat} (body : State → LCtx → LRes) (h : LaneGo s k op) :
    issueL s op k.w body = .next (match body s k with
      | .done t => finishWord t k.x k.blk op k.w (readCycles s k.x op k.w)
      | .wait s => s
      | .fault s f => laneFault s k.x k.blk.spc k.blk.next f) := by
  obtain ⟨⟨⟨hcur, hctx⟩, hq⟩, hready, -⟩ := h
  obtain ⟨rest, hq⟩ : ∃ rest, k.x.co.laneQ = k.blk :: rest := List.head?_eq_some_iff.mp hq
  simp only [laneReady, Bool.and_eq_true, Bool.not_eq_true'] at hready
  obtain ⟨⟨⟨hrun, hregs⟩, hgood⟩, hheld⟩ := hready
  have hcount : (laneReads op k.w ++ laneWrites op k.w).any (fun r => decide (k.x.co.nv ≤ r)) = false := by
    rw [List.any_eq_false] at hregs ⊢
    exact fun r hr e => hregs r hr (by rw [e]; rfl)
  have hazards : (laneReads op k.w ++ laneWrites op k.w).filter k.x.co.runW.contains = [] := by
    rw [List.any_eq_false] at hregs
    exact List.filter_eq_nil_iff.mpr (fun r hr e => hregs r hr (by rw [e, Bool.or_true]))
  have hparity : (laneReads op k.w).find? (fun r => (maskLanes k.blk.mask).any (fun l => k.x.co.badV.contains (r * 32 + l))) = none := by
    rw [List.any_eq_false] at hgood
    exact List.find?_eq_none.mpr hgood
  rw [issueL, hcur]
  dsimp only
  rw [hctx]
  dsimp only [issueLIn]
  rw [hrun, hq]
  dsimp only
  rw [hcount, hazards, hparity, hheld]
  rfl

theorem ctxOf_laneGo {s : State} {k : LCtx} {op : Nat} (h : LaneGo s k op) : ctxOf s k.x.c = some k.x := by
  obtain ⟨⟨⟨-, hctx⟩, -⟩, -⟩ := h
  exact hctx

theorem park_laneGo {s : State} {k : LCtx} {op : Nat} (h : LaneGo s k op) : k.x.co.park = none := by
  obtain ⟨-, hready, -⟩ := h
  simp only [laneReady, Ctx.laneRunnable, Bool.and_eq_true] at hready
  obtain ⟨⟨⟨⟨⟨⟨⟨⟨-, hpark⟩, -⟩, -⟩, -⟩, -⟩, -⟩, -⟩, -⟩ := hready
  exact Option.isNone_iff_eq_none.mp hpark

/-- A lane word whose own work is local to its cohort issues. -/
theorem laneDoes_of_body {s r t : State} {k : LCtx} {op : Nat} {i : Instr} {body : State → LCtx → LRes} {base : Cohort} {C : Core}
    {g : Group} (hi : exec i s = issueL s op k.w body) (hgo : LaneGo s k op) (hbody : body s k = .done t)
    (h : OnlyLocal r t k.x base C g) (hgrp : base.grp = k.x.co.grp) (hpark : base.park = k.x.co.park) (hsave : g.save = k.x.g.save) :
    LaneDoes s r k i base C g (lateWrites op k.w) := by
  have hissue := issueL_ready body hgo
  have hrun := hpark.trans (park_laneGo hgo)
  obtain ⟨-, -, hsw⟩ := hgo
  obtain ⟨co, C', hlocal, hC', hmoved⟩ := h.finishWord k.blk (readCycles s k.x op k.w) hgrp hrun (fun e => hsave.trans (hsw e))
  exact ⟨_, co, C', by rw [hi, hissue, hbody], hlocal, hC', hmoved⟩

end Sys2Proof.Machine
end

section
/-! Proofs of the family 03_shared_memory: what a lane word's requests change before they are sent. -/

open Sys2Proof.Slice0

namespace Sys2Proof.Machine

/-! ### Translating addresses (R34, R447) -/

/-- What counting misses can change: counter captures, and the requests that have left the module. -/
theorem countMisses_frame (s : State) (core t : Nat) (vas : List Nat) : countMisses s core t vas = { s with
    tenants := (countMisses s core t vas).tenants, sysOut := (countMisses s core t vas).sysOut,
    link := { s.link with out := (countMisses s core t vas).link.out } } := by
  have hcount := fun n => countEvent_frame s t 10 n
  have hasked := fun ps u => asked_foldl (fun s p => walked s core t (p * 65536)) (fun s p => asked_walked s core t (p * 65536)) ps u
  unfold countMisses
  dsimp only
  rw [hasked, hcount]

section
variable (s : State) (x : Ctx) (vas : List Nat)

theorem seeks_frame : seeks s x vas = { s with
    tenants := (seeks s x vas).tenants, sysOut := (seeks s x vas).sysOut,
    link := { s.link with out := (seeks s x vas).link.out } } := countMisses_frame s x.core x.t vas

@[simp] theorem seeks_core (k : Nat) : (seeks s x vas).core k = s.core k := by rw [seeks_frame]; rfl
@[simp] theorem seeks_clk : (seeks s x vas).clk = s.clk := by rw [seeks_frame]
@[simp] theorem seeks_fresh : (seeks s x vas).fresh = s.fresh := by rw [seeks_frame]
@[simp] theorem seeks_pathOf (pa : Nat) : pathOf (seeks s x vas) pa = pathOf s pa := by rw [seeks_frame]; rfl
@[simp] theorem seeks_whoIs (co : Cohort) (spc : Word) : whoIs (seeks s x vas) co spc = whoIs s co spc := by rw [seeks_frame]; rfl
@[simp] theorem seeks_ctxOf (c : Nat) : ctxOf (seeks s x vas) c = ctxOf s c := by rw [seeks_frame]; rfl
end

/-! ### The L1D (R60) -/

/-- The L1D without the lines of no address. -/
theorem filter_noneDropped {α : Type} (f : α → Nat) (l1d : List L1Line) :
    l1d.filter (fun e => ([] : List α).all (fun a => e.pa != f a / 64 * 64)) = l1d :=
  List.filter_eq_self.mpr (fun _ _ => rfl)

/-- The L1D without the lines of an address and of further ones. -/
theorem filter_l1Drop {α : Type} (f : α → Nat) (a : α) (l : List α) (C : Core) :
    (l1Drop C (f a)).l1d.filter (fun e => l.all (fun a => e.pa != f a / 64 * 64)) =
      C.l1d.filter (fun e => (a :: l).all (fun a => e.pa != f a / 64 * 64)) := by
  simp [l1Drop, List.filter_filter, Bool.and_comm]

theorem l1Drop_foldl {α : Type} (f : α → Nat) (l : List α) (C : Core) : l.foldl (fun C a => l1Drop C (f a)) C =
    { C with l1d := C.l1d.filter (fun e => l.all (fun a => e.pa != f a / 64 * 64)) } := by
  induction l generalizing C with
  | nil => rw [List.foldl_nil, filter_noneDropped]
  | cons a l ih =>
    rw [List.foldl_cons, ih, filter_l1Drop]
    rfl

theorem l1Drop_pieces (C : Core) (ps : List Piece) : ps.foldl (fun C p => l1Drop C p.xl.pa) C = { C with l1d := linesDropped C ps } := by
  rw [l1Drop_foldl (fun p : Piece => p.xl.pa)]
  rfl

/-- A lane word that only translates addresses and sends requests of its core. -/
theorem laneDoes_sends {s : State} {k : LCtx} {op : Nat} {i : Instr} {body : State → LCtx → LRes} {ps : List Piece} {f : Core → Core}
    (hi : exec i s = issueL s op k.w body) (hgo : LaneGo s k op)
    (hbody : body s k = .done ((seeks s k.x (vasOf ps)).onCore k.x.core f)) :
    LaneDoes s (seeks s k.x (vasOf ps)) k i k.x.co (f (s.core k.x.core)) k.x.g (lateWrites op k.w) := by
  have hsame := onlyLocal_refl ((seeks_ctxOf s k.x (vasOf ps) k.x.c).trans (ctxOf_laneGo hgo))
  rw [seeks_core] at hsame
  exact laneDoes_of_body hi hgo hbody (hsame.onCore f) rfl rfl rfl

end Sys2Proof.Machine
end

section
/-! Proofs of the family 03_shared_memory: the reductions of the lanes. -/

open Sys2Proof.Slice0

namespace Sys2Proof.Machine

/-! ### Reductions of the lanes (R79, R375) -/

/-- A sum of numbers, reduced at every step. -/
theorem foldl_add_mod {α : Type} (f : α → Nat) (m : Nat) (l : List α) {v : Nat} (hv : v < m) :
    l.foldl (fun t a => (t + f a) % m) v = (v + (l.map f).sum) % m := by
  induction l generalizing v with
  | nil => exact (Nat.mod_eq_of_lt hv).symm
  | cons a r ih =>
    rw [List.foldl_cons, ih (Nat.mod_lt _ (Nat.zero_lt_of_lt hv)), Nat.mod_add_mod, List.map_cons, List.sum_cons, Nat.add_assoc]

theorem toNat_dataOperand_lt (k : LCtx) (w64 : Bool) (l : Nat) : (dataOperand k w64 l).toNat < 2 ^ (if w64 then 64 else 32) := by
  unfold dataOperand
  split
  · exact BitVec.isLt _
  · rw [BitVec.toNat_setWidth_of_le (by decide)]
    exact BitVec.isLt _

/-- An address that a word names has a piece. -/
theorem piecesAt_ne_nil {ps : List Piece} {va : Nat} (h : va ∈ dedup (ps.map (·.va))) : ps.filter (fun p => p.va == va) ≠ [] := by
  rw [mem_dedup, List.mem_map] at h
  obtain ⟨p, hp, rfl⟩ := h
  exact List.ne_nil_of_mem (List.mem_filter.mpr ⟨hp, beq_self_eq_true _⟩)

/-- The combined reduction for one address (R79). -/
def combined (k : LCtx) (seq : Nat) (p : Piece) (r : List Piece) : RedReq :=
  { c := k.x.c, t := k.x.t, pa := p.xl.pa, code := laneCodeOf k.w, w64 := k.w.aw64, seq := seq,
    val := BitVec.ofNat 64 (r.foldl (fun t q => atomicWord (laneCodeOf k.w) (if k.w.aw64 then 64 else 32) t
      (dataOperand k k.w.aw64 q.lane).toNat 0) (dataOperand k k.w.aw64 p.lane).toNat) }

/-- The reduction that the combiner makes for an address; none where no piece names it. -/
def combineAt (k : LCtx) (seq : Nat) (ps : List Piece) (va : Nat) : Option RedReq :=
  match ps.filter (fun p => p.va == va) with
  | [] => none
  | p :: r => some (combined k seq p r)

theorem combine_eq (k : LCtx) (seq : Nat) (ps : List Piece) :
    combine k seq ps = (dedup (ps.map (·.va))).filterMap (combineAt k seq ps) := rfl

/-- Each address that a word names gives one reduction. -/
theorem combineAt_named {k : LCtx} {seq : Nat} {ps : List Piece} {va : Nat} (h : va ∈ dedup (ps.map (·.va))) :
    ∃ p r, ps.filter (fun p => p.va == va) = p :: r ∧ combineAt k seq ps va = some (combined k seq p r) := by
  obtain ⟨p, r, hf⟩ := List.exists_cons_of_ne_nil (piecesAt_ne_nil h)
  exact ⟨p, r, hf, by rw [combineAt, hf]⟩

theorem combineAt_isSome {k : LCtx} {seq : Nat} {ps : List Piece} :
    ∀ va ∈ dedup (ps.map (·.va)), (combineAt k seq ps va).isSome = true := by
  intro va h
  obtain ⟨p, r, -, hc⟩ := combineAt_named (k := k) (seq := seq) h
  rw [hc]
  rfl

theorem length_combine (k : LCtx) (seq : Nat) (ps : List Piece) : (combine k seq ps).length = (dedup (ps.map (·.va))).length := by
  rw [combine_eq, List.filterMap_length_eq_length]
  exact combineAt_isSome

/-- A filterMap that drops nothing keeps every place. -/
theorem getElem?_filterMap_total {α β : Type} {f : α → Option β} {l : List α} (h : ∀ a ∈ l, (f a).isSome = true) (j : Nat) :
    (l.filterMap f)[j]? = l[j]?.bind f := by
  induction l generalizing j with
  | nil => rfl
  | cons a r ih =>
    obtain ⟨b, hb⟩ := Option.isSome_iff_exists.mp (h a List.mem_cons_self)
    rw [List.filterMap_cons_some hb]
    cases j with
    | zero => exact hb.symm
    | succ j => exact ih (fun c hc => h c (List.mem_cons_of_mem _ hc)) j

/-- The operands that name an address, added (R75, R79). -/
theorem toNat_combined_add {k : LCtx} (seq : Nat) (p : Piece) (r : List Piece) (hcode : laneCodeOf k.w = 0) :
    (combined k seq p r).val.toNat = ((p :: r).map (fun p => (dataOperand k k.w.aw64 p.lane).toNat)).sum %
      2 ^ (if k.w.aw64 then 64 else 32) := by
  have hle : 2 ^ (if k.w.aw64 then 64 else 32) ≤ 2 ^ 64 := Nat.pow_le_pow_right (by decide) (by split <;> decide)
  have hsum := foldl_add_mod (fun q : Piece => (dataOperand k k.w.aw64 q.lane).toNat) _ r (toNat_dataOperand_lt k k.w.aw64 p.lane)
  rw [combined, hcode, List.map_cons, List.sum_cons, ← hsum]
  refine (BitVec.toNat_ofNat _ _).trans (Nat.mod_eq_of_lt (Nat.lt_of_lt_of_le ?_ hle))
  show r.foldl (fun t q => (t + (dataOperand k k.w.aw64 q.lane).toNat) % 2 ^ (if k.w.aw64 then 64 else 32)) _ < _
  rw [hsum]
  exact Nat.mod_lt _ (Nat.two_pow_pos _)

theorem combine_add {k : LCtx} (seq : Nat) {ps : List Piece} (hcode : laneCodeOf k.w = 0) {j va : Nat}
    (h : (dedup (ps.map (·.va)))[j]? = some va) : ∃ q, (combine k seq ps)[j]? = some q ∧ q.val.toNat =
      ((ps.filter (fun p => p.va == va)).map (fun p => (dataOperand k k.w.aw64 p.lane).toNat)).sum % 2 ^ (if k.w.aw64 then 64 else 32) := by
  obtain ⟨p, r, hf, hc⟩ := combineAt_named (k := k) (seq := seq) (List.mem_of_getElem? h)
  refine ⟨combined k seq p r, ?_, ?_⟩
  · rw [combine_eq, getElem?_filterMap_total combineAt_isSome, h]
    exact hc
  · rw [hf]
    exact toNat_combined_add seq p r hcode

theorem vred_sends {s : State} {k : LCtx} {n : Nat} {ps : List Piece} (hgo : LaneGo s k 0x83) (hn : n = (if k.w.aw64 then 8 else 4))
    (hps : allPieces s k (smOfAm k.w.am k.w.aw64) n n .readWrite noAtomics = .ok ps) :
    LaneDoes s (seeks s k.x (vasOf ps)) k (.vred k.w) k.x.co
      { s.core k.x.core with
          l1d := linesDropped (s.core k.x.core) ps, reds := (s.core k.x.core).reds ++ combine k (s.core k.x.core).seq ps,
          seq := (s.core k.x.core).seq + 1 } k.x.g := by
  have hd := laneDoes_sends (ps := ps) (f := fun C =>
    { ps.foldl (fun C p => l1Drop C p.xl.pa) C with reds := C.reds ++ combine k C.seq ps, seq := C.seq + 1 })
    (exec_vred s k.w) hgo (by
      subst hn
      dsimp only [smOfWord]
      rw [hps]
      rfl)
  rwa [l1Drop_pieces] at hd

theorem vredo_sends {s : State} {k : LCtx} {ps : List Piece} (hgo : LaneGo s k 0x84)
    (hps : allPieces s k (smOfAm k.w.am k.w.aw64) 4 4 .readWrite (notLocal s) = .ok ps) :
    LaneDoes s (seeks s k.x (vasOf ps)) k (.vredo k.w) k.x.co { s.core k.x.core with
      l1d := linesDropped (s.core k.x.core) ps, redos := (s.core k.x.core).redos ++ ps.map (fun p =>
        ⟨k.x.c, k.x.slot, p.xl.pa, k.w.tyn - 3, k.c p.lane, k.dreg 0 p.lane⟩) } k.x.g := by
  have hd := laneDoes_sends (ps := ps) (f := fun C =>
    { ps.foldl (fun C p => l1Drop C p.xl.pa) C with redos := C.redos ++ ps.map (fun p =>
        ⟨k.x.c, k.x.slot, p.xl.pa, k.w.tyn - 3, k.c p.lane, k.dreg 0 p.lane⟩) })
    (exec_vredo s k.w) hgo (by
      dsimp only [smOfWord]
      rw [hps]
      rfl)
  rwa [l1Drop_pieces] at hd

/-- Settles O33: each word sends what the combiner, or its lanes one by one, give; the combiner drops no address, and adds at every
step modulo the width. -/
theorem laneReductionsAreSent : Obligations.LaneReductionsAreSent := by
  refine ⟨fun s k n ps hgo hn hps => ⟨_, vred_sends hgo hn hps, rfl, length_combine _ _ _, fun hcode j va h => ?_⟩,
    fun s k ps hgo hps => vredo_sends hgo hps⟩
  have hwidth : 8 * n = if k.w.aw64 then 64 else 32 := by rw [hn]; split <;> rfl
  rw [hwidth]
  exact combine_add _ hcode h

end Sys2Proof.Machine
end

section
/-! Proofs of the family 03_shared_memory: future words. -/

open Sys2Proof.Slice0

namespace Sys2Proof.Machine

/-! ### Future words (R82, R377 to R379) -/

/-- The address of the first piece that names a cell. -/
def cellVa (ps : List Piece) (pa : Nat) : Nat := match ps.find? (fun p => p.xl.pa == pa) with | some p => p.va | none => 0

theorem cellVa_named {ps : List Piece} {c : Nat × List Nat} (h : c ∈ cellsNamed ps) :
    ∃ p ∈ ps, p.xl.pa = c.1 ∧ p.va = cellVa ps c.1 := by
  simp only [cellsNamed, List.mem_map, mem_dedup] at h
  obtain ⟨_, ⟨q, hq, rfl⟩, rfl⟩ := h
  obtain ⟨p, hp⟩ := Option.isSome_iff_exists.mp
    (List.find?_isSome.mpr ⟨q, hq, beq_self_eq_true q.xl.pa⟩ : (ps.find? (fun p => p.xl.pa == q.xl.pa)).isSome = true)
  have hpa := List.find?_some hp
  exact ⟨p, List.mem_of_find?_eq_some hp, beq_iff_eq.mp hpa, by rw [cellVa, hp]⟩

/-- Whether every cell of a list lies off a line says the same of the pieces that name them. -/
theorem all_cellsNamed (ps : List Piece) (f : Nat → Bool) : (cellsNamed ps).all (fun c => f c.1) = ps.all (fun p => f p.xl.pa) := by
  rw [Bool.eq_iff_iff]
  simp [cellsNamed, List.all_eq_true]

/-- The result of a VLDF's request for a cell. -/
def futPend (s : State) (k : LCtx) (ps : List Piece) (tag : Nat) (c : Nat × List Nat) : Pending :=
  { lanePending k tag (laneWrites 0x85 k.w) (pathOf s c.1) (cellVa ps c.1) with
    future := true, lanes := c.2, w64 := k.w.fw64, waits := if k.x.co.pend.any Pending.atRest then 0 else 1 }

/-- The request itself. -/
def futReq (s : State) (k : LCtx) (ps : List Piece) (seq tag : Nat) (c : Nat × List Nat) : FutReq :=
  { c := k.x.c, tag := tag, pa := c.1, w64 := k.w.fw64, scope := futScope k.w, at_ := s.clk, seq := seq, va := cellVa ps c.1 }

/-- One request of a VLDF sent. -/
def sendFut (k : LCtx) (ps : List Piece) (s : State) (c : Nat × List Nat) : State :=
  (addPending { s with fresh := s.fresh + 1 } k.x.c (futPend s k ps s.fresh c)).onCore k.x.core (fun C =>
    { l1Drop C c.1 with freqs := C.freqs ++ [futReq s k ps C.seq s.fresh c] })

section
variable {r t : State} {k : LCtx} {ps : List Piece} {co : Cohort} {C : Core} {g : Group}

theorem OnlyLocal.sendFut (h : OnlyLocal r t k.x co C g) (c : Nat × List Nat) :
    OnlyLocal r (sendFut k ps t c) k.x { co with pend := co.pend ++ [futPend r k ps t.fresh c] }
      { l1Drop C c.1 with freqs := C.freqs ++ [futReq r k ps C.seq t.fresh c] } g := by
  have hpend : futPend t k ps t.fresh c = futPend r k ps t.fresh c := by rw [futPend, h.pathOf]; rfl
  have hreq : ∀ seq, futReq t k ps seq t.fresh c = futReq r k ps seq t.fresh c := fun seq => by rw [futReq, h.clk]; rfl
  have hs := ((h.withFresh (t.fresh + 1)).onCohort (fun co => { co with pend := co.pend ++ [futPend t k ps t.fresh c] })).onCore
    (fun C => { l1Drop C c.1 with freqs := C.freqs ++ [futReq t k ps C.seq t.fresh c] })
  rw [hpend, hreq] at hs
  rw [Machine.sendFut, hpend]
  exact hs

theorem OnlyLocal.sendFuts (h : OnlyLocal r t k.x co C g) (cs : List (Nat × List Nat)) :
    OnlyLocal r (cs.foldl (Machine.sendFut k ps) t) k.x
      { co with pend := co.pend ++ cs.mapIdx (fun j c => futPend r k ps (t.fresh + j) c) }
      { C with
          l1d := C.l1d.filter (fun e => cs.all (fun c => e.pa != c.1 / 64 * 64)),
          freqs := C.freqs ++ cs.mapIdx (fun j c => futReq r k ps C.seq (t.fresh + j) c) } g := by
  induction cs generalizing t co C with
  | nil =>
    rw [List.foldl_nil, List.mapIdx_nil, List.mapIdx_nil, List.append_nil, List.append_nil,
      filter_noneDropped (fun c : Nat × List Nat => c.1)]
    exact h
  | cons c cs ih =>
    have hs := ih (h.sendFut (ps := ps) c)
    have hfresh : ∀ j, t.fresh + 1 + j = t.fresh + (j + 1) := fun j => by omega
    rw [show (Machine.sendFut k ps t c).fresh = t.fresh + 1 from rfl] at hs
    simp only [hfresh, List.append_assoc, List.singleton_append, filter_l1Drop (fun c : Nat × List Nat => c.1)] at hs
    rw [List.foldl_cons, List.mapIdx_cons, List.mapIdx_cons]
    exact hs

end

theorem vldf_sends {s : State} {k : LCtx} {ps : List Piece} (hgo : LaneGo s k 0x85)
    (hps : allPieces s k k.w.sm 16 16 .read (fun p => p.mt == 2) = .ok ps) :
    LaneDoes s (seeks s k.x (vasOf ps)) k (.vldf k.w)
      { k.x.co with pend := k.x.co.pend ++ (cellsNamed ps).mapIdx (fun j c => futPend s k ps (s.fresh + j) c) }
      { s.core k.x.core with
          l1d := linesDropped (s.core k.x.core) ps,
          freqs := (s.core k.x.core).freqs ++ (cellsNamed ps).mapIdx (fun j c => futReq s k ps (s.core k.x.core).seq (s.fresh + j) c),
          seq := (s.core k.x.core).seq + 1 } k.x.g (laneWrites 0x85 k.w) := by
  have hsent := (onlyLocal_refl ((seeks_ctxOf s k.x (vasOf ps) k.x.c).trans (ctxOf_laneGo hgo))).sendFuts (ps := ps) (cellsNamed ps)
  have hpend : ∀ tag c, futPend (seeks s k.x (vasOf ps)) k ps tag c = futPend s k ps tag c := fun tag c => by
    rw [futPend, seeks_pathOf]
    rfl
  have hreq : ∀ seq tag c, futReq (seeks s k.x (vasOf ps)) k ps seq tag c = futReq s k ps seq tag c := fun seq tag c => by
    rw [futReq, seeks_clk]
    rfl
  have hl1d : (s.core k.x.core).l1d.filter (fun e => (cellsNamed ps).all (fun c => e.pa != c.1 / 64 * 64)) =
      linesDropped (s.core k.x.core) ps :=
    congrArg (List.filter · _) (funext fun e => all_cellsNamed ps (fun pa => e.pa != pa / 64 * 64))
  simp only [hpend, hreq, seeks_core, seeks_fresh, hl1d] at hsent
  exact laneDoes_of_body (exec_vldf s k.w) hgo (by dsimp only; rw [hps]; rfl)
    (hsent.onCore (fun C => { C with seq := C.seq + 1 })) rfl rfl rfl

/-- A VSTF's write of a cell (R379). -/
def fillReq (s : State) (k : LCtx) (seq : Nat) (c : Nat × List Nat) : StoreReq :=
  { c := k.x.c, t := k.x.t, cells := cellsOf c.1 (fillBytes k (c.2.getLast?.getD 0)), fill := true, mt := 0, seq := seq, lane := true,
    who := some (whoIs s k.x.co k.blk.spc) }

/-- Stores that enter a cohort's store queue one after another (R111). -/
theorem OnlyLocal.pushStores {α : Type} {r t : State} {x : Ctx} {co : Cohort} {C : Core} {g : Group} (h : OnlyLocal r t x co C g)
    (push : State → α → State) (req : Nat → α → StoreReq)
    (hpush : ∀ t co C, OnlyLocal r t x co C g → ∀ a, push t a =
      t.onCore x.core (fun C => { C with queue := C.queue ++ [req C.seq a], seq := C.seq + 1 })) (l : List α) :
    OnlyLocal r (l.foldl push t) x co
      { C with queue := C.queue ++ l.mapIdx (fun j a => req (C.seq + j) a), seq := C.seq + l.length } g := by
  induction l generalizing t C with
  | nil => simpa using h
  | cons a l ih =>
    have hs := ih (h.onCore (fun C => { C with queue := C.queue ++ [req C.seq a], seq := C.seq + 1 }))
    have hseq : ∀ j, C.seq + 1 + j = C.seq + (j + 1) := fun j => by omega
    simp only [hseq, List.append_assoc, List.singleton_append] at hs
    rw [List.foldl_cons, List.mapIdx_cons, List.length_cons, hpush t co C h]
    exact hs

/-- The identity of a cohort rests on its group, which its own requests leave as it is, its launch and the clock (R440). -/
theorem OnlyLocal.whoIs {r t : State} {x : Ctx} {co : Cohort} {C : Core} {g : Group} (h : OnlyLocal r t x co C g)
    (hg : lookup r.groups x.co.grp = some g) (spc : Word) : whoIs t x.co spc = whoIs r x.co spc := by
  have hlaunches : t.launches = r.launches := by rw [h.frame]
  have hgen : ∀ slot, t.gen slot = r.gen slot := fun slot => by rw [h.frame]; rfl
  have hlaunch : launchOf t x.co = launchOf r x.co := by rw [launchOf, launchOf, h.group, hg, hlaunches]
  simp only [Machine.whoIs, hlaunch, h.clk, hgen]

/-- Two numbers laid side by side are the bytes of one. -/
theorem leBytes_append (m n w : Nat) {v : Nat} (h : v < 2 ^ (8 * m)) :
    leBytes m v ++ leBytes n w = leBytes (m + n) (v + 2 ^ (8 * m) * w) := by
  induction m generalizing v with
  | zero =>
    have hv : v = 0 := by simpa using h
    simp [leBytes, hv]
  | succ m ih =>
    have hpow : 2 ^ (8 * (m + 1)) = 256 * 2 ^ (8 * m) := by rw [Nat.mul_succ, Nat.add_comm, Nat.pow_add]
    have hquot : (v + 2 ^ (8 * (m + 1)) * w) / 256 = v / 256 + 2 ^ (8 * m) * w := by
      rw [hpow, Nat.mul_assoc, Nat.add_mul_div_left _ _ (by decide)]
    have hbyte : BitVec.ofNat 8 (v + 2 ^ (8 * (m + 1)) * w) = BitVec.ofNat 8 v := by
      apply BitVec.eq_of_toNat_eq
      rw [hpow, Nat.mul_assoc]
      exact Nat.add_mul_mod_self_left v 256 _
    rw [leBytes, List.cons_append, ih (by rw [hpow] at h; omega), Nat.succ_add, leBytes, hquot, hbyte]

theorem fillBytes_eq (k : LCtx) (lane : Nat) : fillBytes k lane = leBytes 16 ((dataOperand k k.w.fw64 lane).toNat + 2 ^ 64) := by
  rw [fillBytes, leBytes_append 8 8 1 (BitVec.isLt _), Nat.mul_one]

theorem vstf_sends {s r : State} {k : LCtx} {y : Ctx} {ps : List Piece} (hgo : LaneGo s k 0x86)
    (hps : allPieces s k k.w.sm 16 16 .write (fun p => p.mt == 2) = .ok ps)
    (hrel : release s k.x.core k.x.t k.x.c (futScope k.w) = some r) (hy : Became r k.x y) :
    LaneDoes s (seeks r k.x (vasOf ps)) k (.vstf k.w) y.co { r.core k.x.core with
      queue := (r.core k.x.core).queue ++ (cellsNamed ps).mapIdx (fun j c => fillReq r k ((r.core k.x.core).seq + j) c),
      seq := (r.core k.x.core).seq + (cellsNamed ps).length } k.x.g := by
  have hbecame : Became (seeks r k.x (vasOf ps)) k.x y := by rwa [Became, seeks_ctxOf]
  have hsame := onlyLocal_became hbecame
  have hsent := hsame.pushStores (fun s c => pushStore s k.x.core k.x.c k.x.t 0 true (cellsOf c.1 (fillBytes k (c.2.getLast?.getD 0)))
    true (some (whoIs s k.x.co k.blk.spc))) (fillReq r k) (fun t co C h c => by
      rw [h.whoIs hsame.group, seeks_whoIs]
      rfl) (cellsNamed ps)
  rw [seeks_core] at hsent
  obtain ⟨-, -, hco⟩ := hy
  exact laneDoes_of_body (exec_vstf s k.w) hgo (by rw [hps]; dsimp only; rw [hrel]; rfl) hsent (by rw [hco]) (by rw [hco]) rfl

theorem vpref_leaves {s : State} {k : LCtx} (hgo : LaneGo s k 0x8B) : LaneLeaves s k (.vpref k.w) k.x.co :=
  laneDoes_of_body (exec_vpref s k.w) hgo rfl (onlyLocal_refl (ctxOf_laneGo hgo)) rfl rfl rfl

/-- Settles O34: a VLDF sends its cells' requests in one place of the core's order, a VSTF its writes one after another. -/
theorem futureWordsSendTheirRequests : Obligations.FutureWordsSendTheirRequests := by
  have hscope : ∀ k : LCtx, (if k.w.ord = 0 then 3 else k.w.ord - 1) = futScope k.w := fun k => by simp [futScope]
  refine ⟨fun s k ps dst hgo hps hdst => ?vldf, fun s r k y ps hgo hps hrel hy => ?vstf, fun s k hgo => vpref_leaves hgo⟩
  case vldf =>
    have hwrites : laneWrites 0x85 k.w = dst := hdst.symm
    have hd := vldf_sends hgo hps
    rw [hwrites] at hd
    refine ⟨_, _, hd, List.length_mapIdx, List.length_mapIdx, fun j c hj => ⟨cellVa ps c.1, ?_, ?_, ?_⟩⟩
    · rw [List.getElem?_mapIdx, hj, ← hwrites]
      rfl
    · exact cellVa_named (List.mem_of_getElem? hj)
    · rw [List.getElem?_mapIdx, hj, hscope]
      rfl
  case vstf =>
    rw [hscope] at hrel
    have hd := vstf_sends hgo hps (hrel.2 trivial) hy
    refine ⟨_, by rw [List.length_mapIdx]; exact hd, List.length_mapIdx, fun j c hj => ?_⟩
    rw [List.getElem?_mapIdx, hj, ← fillBytes_eq]
    rfl

end Sys2Proof.Machine
end

section
/-! Proofs of the family 03_shared_memory: what a release leaves on its way. -/

open Sys2Proof.Slice0

namespace Sys2Proof.Machine

/-! ### Releases (R113, R114) -/

/-- A VLDF of cohort 0 whose cell is empty: its home slice holds it. -/
def heldVldf : FutReq := { c := 0, tag := 0, pa := 0, w64 := false, scope := 3, at_ := 0 }

/-- A VLDF of another cell that the cohort has issued after it. -/
def laterVldf : FutReq := { heldVldf with tag := 1, pa := 16, seq := 1 }

/-- The machine in which slice 0 holds the first VLDF and the second is on its way from core 0. -/
def vldfBehindHeld : State :=
  { State.reset with cores := [(0, { freqs := [laterVldf], seq := 2 })], slices := [(0, { held := [heldVldf] })] }

/-- The second VLDF waits for the answer of the first (R114), and a release brings no answer: here it changes nothing. -/
theorem release_vldfBehindHeld : release vldfBehindHeld 0 0 0 2 = some vldfBehindHeld := rfl

/-- Refutes O11: a release at .DIE leaves a future request that no slice holds on its way, where it waits for the answer of an
earlier one, which is held. The model counts such a request as done (assumptions 5, 54), and the statement does not. -/
theorem not_aReleasePerformsWhatItCovers : ¬ Obligations.AReleasePerformsWhatItCovers := by
  rintro ⟨-, h⟩
  obtain ⟨-, -, hfreqs, -⟩ := h vldfBehindHeld vldfBehindHeld 0 0 0 2 2 false rfl (Nat.le_refl 2) release_vldfBehindHeld
  have hperformed : laterVldf.away = true ∨ 2 ≤ laterVldf.seq := hfreqs laterVldf List.mem_cons_self rfl
  exact absurd hperformed (by decide)

end Sys2Proof.Machine
end
